-- ==== Sys2Proof/Word.lean ====
section
/-! DEFINITION. The bit-vector types of the block: what the spec stores or moves as bits. -/

namespace Sys2Proof

/-- One byte: a data byte, `TXDATA`, `SHIFT`, `FRAME` (R22, R74). -/
abbrev Byte := BitVec 8

/-- The 32-bit argument `ARG` of a command word, and the response word (R31, R71). -/
abbrev Word32 := BitVec 32

/-- The 12-bit contents of the divisor register `DIV` (R25). -/
abbrev Divisor := BitVec 12

/-- One whole command word: `OP` in bits 39:32 and `ARG` in bits 31:0 (R71). -/
abbrev CmdWord := BitVec 40

end Sys2Proof
end

