-- ==== Sys2Proof/Syntax.lean ====
section
/-! DEFINITION. The seven commands of the block, the lines of a host program, the commands as an
assembler text names them, and the pseudo-instructions (30_encoding.md, 00_scope.md R11). -/

namespace Sys2Proof

/-- The commands of R70, one constructor per row of the opcode table, in the table's order.
An operand has exactly the width of its field, so a command with an operand out of range cannot
be written (R40, R73, R74). -/
inductive Instr where
  /-- CONFIG: `b` is the requested baud rate (R73, R120). -/
  | config (b : Word32)
  /-- END (R124). -/
  | endCmd
  /-- TXBYTE: wait until ready, then send `d` (R74, R140). -/
  | txbyte (d : Byte)
  /-- TXRAW: write `d` without waiting (R74, R143). -/
  | txraw (d : Byte)
  /-- POLLRDY (R126). -/
  | pollrdy
  /-- POLLTXC (R128). -/
  | polltxc
  /-- FLUSH (R130). -/
  | flush
  deriving DecidableEq, Repr

/-- One line of a host program (R11), its labels resolved to line numbers counted from 0. -/
inductive HostLine where
  /-- One command word issued to the block, waiting for its response. -/
  | issue (w : CmdWord)
  /-- `BZ label`: branch to the label if bit 0 of the last response is 0. -/
  | bz (target : Nat)
  /-- `B label`: branch always. -/
  | b (target : Nat)
  /-- `HALT`: the host stops issuing commands. -/
  | halt
  deriving DecidableEq, Repr

/-- A command as an assembler text names it (R80): its operands are numbers of any size, which
the assembler checks against their range. -/
inductive AsmCmd where
  | config (b : Nat)
  | endCmd
  | txbyte (d : Nat)
  | txraw (d : Nat)
  | pollrdy
  | polltxc
  | flush
  deriving DecidableEq, Repr

/-- The pseudo-instructions of R82 to R84. They are the host's and stand for command lines. -/
inductive Pseudo where
  /-- `BEGIN` or `BEGIN <B>` (R82). -/
  | begin (b : Option Word32)
  /-- `WAITRDY` (R83). -/
  | waitRdy
  /-- The polling form `WAITRDY ; TXRAW d` of TXBYTE (R83). -/
  | txbytePolling (d : Byte)
  /-- The polling form `L: POLLTXC ; BZ L` of FLUSH (R83). -/
  | flushPolling
  /-- `PRINTLN` (R84). -/
  | println
  /-- `TXBLOCK` and `TXBLOCKAUX`, the bytes already read by the host (R84). -/
  | txBlock (bytes : List Byte)
  /-- `TXSTR` and `TXSTRAUX`; `none` is the null reference (R84). -/
  | txStr (text : Option (List Byte))
  /-- `PRINTBIN d` (R84). -/
  | printBin (d : Byte)
  /-- `PRINTDIGIT n` (R84). -/
  | printDigit (n : Byte)
  deriving DecidableEq, Repr

end Sys2Proof
end

