-- ==== Sys2Proof/WellFormed.lean ====
section
/-! DEFINITION. What is well formed: a command word (some row of the opcode table selects it,
R72, R76), an assembler command (its operand is in range, R80), a host program (its branches stay
inside it, R11). Every `Instr` is well formed by its type (R40). -/

namespace Sys2Proof

/-- One row of the opcode table of R72. -/
structure OpcodeRow where
  mnemonic : String
  pattern : CmdWord
  mask : CmdWord
  deriving DecidableEq, Repr

/-- The opcode table (R72, opcode_table.json). -/
def opcodeTable : List OpcodeRow :=
  [ ⟨"CONFIG", 0x0100000000#40, 0xFF00000000#40⟩,
    ⟨"END", 0x0200000000#40, 0xFFFFFFFFFF#40⟩,
    ⟨"TXBYTE", 0x0300000000#40, 0xFFFFFFFF00#40⟩,
    ⟨"TXRAW", 0x0400000000#40, 0xFFFFFFFF00#40⟩,
    ⟨"POLLRDY", 0x0500000000#40, 0xFFFFFFFFFF#40⟩,
    ⟨"POLLTXC", 0x0600000000#40, 0xFFFFFFFFFF#40⟩,
    ⟨"FLUSH", 0x0700000000#40, 0xFFFFFFFFFF#40⟩ ]

/-- A word selects a row iff `(w AND mask) = match` (R72). -/
def OpcodeRow.selects (r : OpcodeRow) (w : CmdWord) : Bool := w &&& r.mask == r.pattern

/-- A command word is legal iff some row of the table selects it (R76). -/
def wordLegal (w : CmdWord) : Bool := opcodeTable.any (·.selects w)

/-- The operand ranges of R80. -/
def asmInRange : AsmCmd → Bool
  | .config b => decide (b < 2 ^ 32)
  | .txbyte d => decide (d < 2 ^ 8)
  | .txraw d => decide (d < 2 ^ 8)
  | .endCmd => true
  | .pollrdy => true
  | .polltxc => true
  | .flush => true

/-- A branch of a program of `n` lines names one of its lines (R11: a label is a line's). -/
def lineInRange (n : Nat) : HostLine → Bool
  | .issue _ => true
  | .bz t => decide (t < n)
  | .b t => decide (t < n)
  | .halt => true

/-- Every branch of the program stays inside it. -/
def programInRange (p : List HostLine) : Bool := p.all (lineInRange p.length)

end Sys2Proof
end

