-- ==== Sys2Proof/Decode.lean ====
section
/-! DEFINITION. The decoder, total on all 40-bit words (R77), the encoder (R71 to R75), and the
numbering by which the opcode table's words are read. -/

namespace Sys2Proof

/-- The opcode field `OP`, bits 39:32 (R71). -/
def opField (w : CmdWord) : BitVec 8 := w.extractLsb' 32 8

/-- The argument field `ARG`, bits 31:0 (R71). -/
def argField (w : CmdWord) : Word32 := w.extractLsb' 0 32

/-- The byte operand `ARG[7:0]` (R74). -/
def byteOperand (arg : Word32) : Byte := arg.extractLsb' 0 8

/-- `ARG[31:8]`, which must be zero in TXBYTE and TXRAW (R74). -/
def byteRest (arg : Word32) : BitVec 24 := arg.extractLsb' 8 24

/-- The decoding algorithm of R77; `none` is ILLEGAL (R76). -/
def decode (w : CmdWord) : Option Instr :=
  let op := opField w
  let arg := argField w
  if op = 0x01#8 then some (.config arg)
  else if op = 0x03#8 ∧ byteRest arg = 0#24 then some (.txbyte (byteOperand arg))
  else if op = 0x04#8 ∧ byteRest arg = 0#24 then some (.txraw (byteOperand arg))
  else if op = 0x02#8 ∧ arg = 0#32 then some .endCmd
  else if op = 0x05#8 ∧ arg = 0#32 then some .pollrdy
  else if op = 0x06#8 ∧ arg = 0#32 then some .polltxc
  else if op = 0x07#8 ∧ arg = 0#32 then some .flush
  else none

/-- The word with the given opcode and argument, `{OP, ARG}` (R71). -/
def cmdWord (op : BitVec 8) (arg : Word32) : CmdWord := op ++ arg

/-- The command word of a command (R72 to R75). -/
def encode : Instr → CmdWord
  | .config b => cmdWord 0x01#8 b
  | .endCmd => cmdWord 0x02#8 0#32
  | .txbyte d => cmdWord 0x03#8 (d.setWidth 32)
  | .txraw d => cmdWord 0x04#8 (d.setWidth 32)
  | .pollrdy => cmdWord 0x05#8 0#32
  | .polltxc => cmdWord 0x06#8 0#32
  | .flush => cmdWord 0x07#8 0#32

/-- The mnemonic of a command's row (R72). -/
def mnemonic : Instr → String
  | .config _ => "CONFIG"
  | .endCmd => "END"
  | .txbyte _ => "TXBYTE"
  | .txraw _ => "TXRAW"
  | .pollrdy => "POLLRDY"
  | .polltxc => "POLLTXC"
  | .flush => "FLUSH"

/-- The command word whose bits are `w`, numbered as the opcode table numbers them: a command is
one whole 40-bit word with bit 0 its least significant bit, so bit k of `w` is bit k of the word
(R53, R71). Bits of `w` from `nbits` up are dropped, and bits of the word from `nbits` up are 0
(DESIGN CHOICE, log entry 17). -/
def tableWord (nbits w : Nat) : CmdWord := BitVec.ofNat 40 (w % 2 ^ nbits)

/-- The command the decoder reads from the opcode table's word `w`. -/
def decodeTableWord (nbits w : Nat) : Option Instr := decode (tableWord nbits w)

/-- The command an assembler command stands for; `none` is the assembly error of an operand out
of range (R80). -/
def assembleCmd (a : AsmCmd) : Option Instr :=
  if asmInRange a then
    match a with
    | .config b => some (.config (BitVec.ofNat 32 b))
    | .endCmd => some .endCmd
    | .txbyte d => some (.txbyte (BitVec.ofNat 8 d))
    | .txraw d => some (.txraw (BitVec.ofNat 8 d))
    | .pollrdy => some .pollrdy
    | .polltxc => some .polltxc
    | .flush => some .flush
  else none

end Sys2Proof
end

