-- ==== Sys2Proof/Config.lean ====
section
/-! DEFINITION. The parameters of the block (00_scope.md R6, 93_implementation_defined.md) and the
values the spec leaves open. -/

namespace Sys2Proof

/-- The two agents that take steps (R13). -/
inductive Agent where
  | host
  | engine
  deriving DecidableEq, Repr, Inhabited

/-- The parameter `CALC_ARITH` (U8): the arithmetic of the calculator. -/
inductive CalcArith where
  /-- Mathematical integers, the default (R8, R104, D4). -/
  | ideal
  /-- The 32-bit unsigned wrapping reading of 93_implementation_defined.md. -/
  | wrap32
  deriving DecidableEq, Repr

/-- The parameters of a run (R6, R38): fixed, read by CONFIG only. `TOL` and the supported set S
(U11) are no part of it, since no state rule reads them: they are the arguments of `rateProperty`. -/
structure Params where
  /-- `CLK_HZ`, the fixed clock frequency in hertz, 0 to 2^32 - 1 (R6, D7). -/
  clkHz : BitVec 32
  /-- `CALC_ARITH` (U8). -/
  arith : CalcArith
  deriving DecidableEq, Repr

/-- `BAUD_DEFAULT` (R6, R82). The other fixed parameters of R6 stand as the spec's literals where
they are used: 300, 4095, 57600 and 16 000 000 in the calculator, 0x08 for the 8N1 format. -/
def Config.baudDefault : Word32 := 9600#32

/-- Free value: which of two enabled agents makes the n-th move, when nothing in the state fixes it
(R150, R159: the steps interleave freely). Nothing constrains it, so a run may also be unfair
(DESIGN CHOICE, safe, log entry 2). -/
opaque Config.schedule : Nat → Agent

/-- Free value: the response a `BZ` reads before any command was answered, which R11 does not give
(DESIGN CHOICE, safe, log entry 7). -/
opaque Config.respBeforeFirst : BitVec 32

/-- Free value: the levels the pin carries for the aborted frame of a byte that is event n of the
wire log ("any prefix of the frame, a glitch, or nothing", U5; DESIGN CHOICE, safe, log entry
13). -/
opaque Config.abortedLevels : Nat → Byte → List Bool

end Sys2Proof
end

