-- ==== Sys2Proof/Machine/State.lean ====
section
/-! DEFINITION. The state of the block and of the host agent as plain data, its value at reset,
and the reasons a step could stop for (10_state.md, 70_reset_and_hazards.md). -/

namespace Sys2Proof.Machine

/-- The stored bits of `CTRL`, register 0 (R23). The reserved bit 7 is hard-wired zero and is not
stored (U16, log entry 15). -/
structure Ctrl where
  /-- bit 0: powered and clocked. -/
  pwr : Bool
  /-- bit 1: the transmit path is enabled. -/
  txen : Bool
  /-- bit 2: the receive path is enabled; no rule reads it (R157). -/
  rxen : Bool
  /-- bit 3: the double-speed flag (R26). -/
  u2x : Bool
  /-- bit 4: transmit-complete interrupt enable; never 1 (R173). -/
  txcie : Bool
  /-- bit 5: output-buffer-empty interrupt enable; never 1 (R173). -/
  udrie : Bool
  /-- bit 6: receive-complete interrupt enable; never 1 (R173). -/
  rxcie : Bool
  deriving DecidableEq, Repr

/-- The stored flags of `STATUS`, register 3 (R27). `READY` is derived (R28) and bits 7:4 are
hard-wired zero (U16, log entry 15), so neither is stored. -/
structure Status where
  /-- bit 0: the output buffer holds no pending byte. -/
  udre : Bool
  /-- bit 1: the most recently accepted byte has fully left the shift register. -/
  txc : Bool
  /-- bit 2: `SHIFT` holds a frame that is being sent. -/
  busy : Bool
  deriving DecidableEq, Repr

/-- An event of the wire log (R32). -/
inductive WireEvent where
  /-- A complete frame and the configuration it was sent with. -/
  | frame (data : Byte) (div : Divisor) (u2x : Bool) (format : Byte)
  /-- A frame that CONFIG or END cut off. -/
  | aborted (data : Byte)
  deriving DecidableEq, Repr

/-- A fault as R171 records it: its name and its information. It stops nothing. -/
inductive FaultRecord where
  /-- Code 1, with the 40-bit word. -/
  | illegalCommand (w : CmdWord)
  /-- Code 2, with the byte. -/
  | txNotReady (d : Byte)
  /-- Code 3. -/
  | configWhilePending
  /-- Code 4. -/
  | endWhilePending
  deriving DecidableEq, Repr

/-- Everything the spec gives the machine (R22, R31 to R33), the parameters (R38) and the host
agent (R11, R13). INVENTORY.md lists each field with its rule. -/
structure State where
  /-- The parameters; no step writes them (R38, log entry 5). -/
  params : Params
  /-- Register 0 (R23). -/
  ctrl : Ctrl
  /-- Register 1, the frame format (R24). -/
  frame : Byte
  /-- Register 2, the baud-rate divisor (R25). -/
  div : Divisor
  /-- Register 3 (R27). -/
  status : Status
  /-- Register 4, the output buffer (R29). -/
  txdata : Byte
  /-- Register 5, the shift register (R30). -/
  shift : Byte
  /-- `WIRE`, oldest event first (R32). -/
  wire : List WireEvent
  /-- `FAULTS` with the information of R171, oldest record first (R33, log entry 9). -/
  faultLog : List FaultRecord
  /-- The responses the host received, oldest first (R14, R31). -/
  resps : List Word32
  /-- The host agent's program (R11, log entry 1). -/
  prog : List HostLine
  /-- The index of the host agent's next line (R11, log entry 1). -/
  hostPc : Nat
  /-- Who moves in the coming moves, as far as it is fixed from outside (R159, log entry 2). -/
  sched : List Agent
  /-- The number of moves made, which `Config.schedule` is applied to (log entry 2). -/
  tick : Nat
  deriving DecidableEq, Repr

/-- Reasons a step stops with a fault. There is none: the block has no trap and no command stops
the machine (R170, R175), so no step answers a fault (log entry 21). -/
inductive Fault where
  deriving DecidableEq, Repr

/-- Reasons a step has no meaning. -/
inductive Refusal where
  /-- An instruction whose meaning is not written yet. Raised by no arm: all seven commands have
  their meaning. Safe: nothing follows about a step that is refused. -/
  | notModelled (mnemonic : String)
  deriving DecidableEq, Repr

/-- The answer of a meaning or a step. -/
abbrev Answer := Host.Outcome State Fault Refusal

/-- The state when the block leaves reset (R35, R190). `TXDATA` and `SHIFT` are unspecified there
and hold the value of log entry 6; the parameters hold the reference values of log entry 5; no
program is loaded and nothing about the interleaving is fixed (log entries 1, 2 and 17). -/
def State.reset : State where
  params := ⟨16000000#32, .ideal⟩
  ctrl := ⟨false, false, false, false, false, false, false⟩
  frame := 0x08#8
  div := 0x000#12
  status := ⟨true, false, false⟩
  txdata := 0x00#8
  shift := 0x00#8
  wire := []
  faultLog := []
  resps := []
  prog := []
  hostPc := 0
  sched := []
  tick := 0

end Sys2Proof.Machine
end

