-- ==== Sys2Proof/Machine/Operands.lean ====
section
/-! DEFINITION. The operand forms of the commands and of the response (R25, R31, R73, R74). -/

namespace Sys2Proof.Machine

/-- The requested baud rate as the calculator's integer: the argument read as unsigned, with no
sign, scaling or shift (R73). -/
def requestedBaud (b : Word32) : Nat := b.toNat

/-- The clock frequency as the calculator's integer (R6). -/
def clockHz (p : Params) : Nat := p.clkHz.toNat

/-- `div mod 4096`, the low 12 bits the divisor register keeps (R25, R40, R107). -/
def divisorField (div : Int) : Divisor := BitVec.ofInt 12 div

/-- `zext_32(flag)`, the response of a poll (R9, R31, R79). -/
def flagResponse (flag : Bool) : Word32 := (BitVec.ofBool flag).setWidth 32

/-- The response of every command but the polls, and of an illegal word (R31, R79). -/
def zeroResponse : Word32 := 0#32

end Sys2Proof.Machine
end

