-- ==== Sys2Proof/Machine/Baud.lean ====
section
/-! DEFINITION. The baud-rate divisor calculator (40_baud_calculator.md), its two readings of the
arithmetic (93_implementation_defined.md U8), and the informational effective rate (R110). -/

namespace Sys2Proof.Machine

/-- `tdiv(a, b)`: the quotient truncated toward zero (R8). -/
def tdiv (a b : Int) : Int := Int.tdiv a b

/-- The clamp `Bc` to `BAUD_MIN` (R6, R101). -/
def clampBaud (b : Nat) : Nat := if b < 300 then 300 else b

/-- `q4` (R102): the divisions are done left to right. -/
def quotient4 (f bc : Nat) : Nat := f / 4 / bc

/-- `q8` (R105). -/
def quotient8 (f bc : Nat) : Nat := f / 8 / bc

/-- `(q - 1) / 2` in the arithmetic of the calculator: truncated on mathematical integers (R102,
R105, R108), or on the difference modulo 2^32 (93_implementation_defined.md, `wrap32`). -/
def halve : CalcArith → Nat → Int
  | .ideal, q => tdiv ((q : Int) - 1) 2
  | .wrap32, q => (((q : Int) - 1) % 2 ^ 32) / 2

/-- The fallback test (R103), on the full value of `d2`: above `DIV_MAX`, or exactly `SPECIAL_BAUD`
on `SPECIAL_CLK` (R6). -/
def fallback (f bc : Nat) (d2 : Int) : Bool :=
  decide (d2 > 4095) || (bc == 57600 && f == 16000000)

/-- `BaudCalc` on integers (R104): the divisor and the double-speed flag. -/
def baudCalc (arith : CalcArith) (f b : Nat) : Int × Bool :=
  let bc := clampBaud b
  let d2 := halve arith (quotient4 f bc)
  if fallback f bc d2 then (halve arith (quotient8 f bc), false) else (d2, true)

/-- The divisor register and the double-speed flag CONFIG programs for the request `b` (R25, R26,
R120). -/
def programmed (p : Params) (b : Word32) : Divisor × Bool :=
  let r := baudCalc p.arith (clockHz p) (requestedBaud b)
  (divisorField r.1, r.2)

/-- The effective rate `B_eff` in bit/s of a frame sent at `div` and `u2x` (R110). Informational:
no state rule reads it (PRESUMED, general knowledge, log entry 14). -/
def effectiveRate (f : Nat) (div : Divisor) (u2x : Bool) : Rat :=
  (f : Rat) / ((if u2x then 8 else 16) * (div.toNat + 1 : Nat) : Nat)

/-- `|B_eff - Bc| ≤ TOL * Bc`, the error-tolerance property of R114 for one request. The tolerance
is an argument: the spec claims the property for no value (U11, log entry 14). -/
def rateWithin (tol : Rat) (p : Params) (b : Word32) : Prop :=
  let bc : Rat := (clampBaud (requestedBaud b) : Nat)
  let rate := effectiveRate (clockHz p) (programmed p b).1 (programmed p b).2
  rate - bc ≤ tol * bc ∧ bc - rate ≤ tol * bc

/-- The error-tolerance property of R114: every pair (F, B) of the supported set is within the
tolerance. Both `TOL` and the set are arguments: the spec gives a value for neither and claims the
property for none (U11, D24, log entry 14). -/
def rateProperty (arith : CalcArith) (tol : Rat) (supported : BitVec 32 → Word32 → Prop) : Prop :=
  ∀ (f : BitVec 32) (b : Word32), supported f b → rateWithin tol ⟨f, arith⟩ b

/-- The duration in seconds of a frame of ten bit periods (R196). Informational (PRESUMED, log
entry 14). -/
def frameSeconds (f : Nat) (div : Divisor) (u2x : Bool) : Rat := 10 / effectiveRate f div u2x

end Sys2Proof.Machine
end

