-- ==== Sys2Proof/Machine/Flags.lean ====
section
/-! DEFINITION. The flags: the derived `READY` (R28), what is pending (R12), the numeric views of
`CTRL`, `STATUS` and `FRAME` (R23, R24, R27), the interrupt request (R173), and every flag write of
the table of R34. -/

namespace Sys2Proof.Machine

/-- `READY = CTRL.PWR ∧ CTRL.TXEN ∧ STATUS.UDRE` (R28). -/
def State.ready (s : State) : Bool := s.ctrl.pwr && s.ctrl.txen && s.status.udre

/-- Powered and transmitter enabled: the condition on the engine's steps (R151, R154). -/
def State.enabled (s : State) : Bool := s.ctrl.pwr && s.ctrl.txen

/-- A byte is pending: in `TXDATA` not yet loaded, or in `SHIFT` not yet fully sent (R12, R122). -/
def State.pending (s : State) : Bool := s.status.busy || !s.status.udre

/-- The bytes in the transmit pipeline, oldest first: `SHIFT` while `BUSY = 1`, then `TXDATA` while
`UDRE = 0` (R39, R60). -/
def State.pipeline (s : State) : List Byte :=
  (if s.status.busy then [s.shift] else []) ++ (if s.status.udre then [] else [s.txdata])

/-- `CTRL` as a number (R23); bit 7 is read-only zero. -/
def ctrlWord (c : Ctrl) : Byte :=
  0#1 ++ BitVec.ofBool c.rxcie ++ BitVec.ofBool c.udrie ++ BitVec.ofBool c.txcie ++
    BitVec.ofBool c.u2x ++ BitVec.ofBool c.rxen ++ BitVec.ofBool c.txen ++ BitVec.ofBool c.pwr

/-- `STATUS` as a number, with the derived `READY` in bit 3 (R27); bits 7:4 are read-only zero. -/
def State.statusWord (s : State) : Byte :=
  0#4 ++ BitVec.ofBool s.ready ++ BitVec.ofBool s.status.busy ++ BitVec.ofBool s.status.txc ++
    BitVec.ofBool s.status.udre

/-- `FRAME.DBITS`, bits 3:0: the number of data bits per frame (R24). -/
def State.dbits (s : State) : BitVec 4 := s.frame.extractLsb' 0 4

/-- `FRAME.PAR`, bits 5:4: 0 is no parity (R24). -/
def State.parity (s : State) : BitVec 2 := s.frame.extractLsb' 4 2

/-- `FRAME.STOP`, bit 6: 0 is one stop bit (R24). -/
def State.stopBit (s : State) : Bool := s.frame.getLsbD 6

/-- `FRAME.MODE`, bit 7: 0 is asynchronous (R24). -/
def State.syncMode (s : State) : Bool := s.frame.getLsbD 7

/-- The block's interrupt request output: some source is enabled and its flag is set. The receive
source has no flag, since there is no receiver (R157). R173 says only that every enable is 0 and
the output is deasserted; the sources are general knowledge (PRESUMED, log entry 16). -/
def State.interruptRequest (s : State) : Bool :=
  (s.ctrl.txcie && s.status.txc) || (s.ctrl.udrie && s.status.udre) || (s.ctrl.rxcie && false)

/-- CONFIG's control bits: powered, both paths enabled, the calculator's double-speed flag, every
interrupt source disabled (R34, R120). -/
def configCtrl (u2x : Bool) : Ctrl where
  pwr := true
  txen := true
  rxen := true
  u2x := u2x
  txcie := false
  udrie := false
  rxcie := false

/-- END's control bits: `TXEN`, `RXEN` and `PWR` cleared, the rest kept (R34, R124). -/
def endCtrl (c : Ctrl) : Ctrl := { c with pwr := false, txen := false, rxen := false }

/-- The status flags after an abort: `UDRE` set, `BUSY` cleared, `TXC` unchanged (R34, R122). -/
def abortStatus (f : Status) : Status := { f with udre := true, busy := false }

/-- The status flags after a byte is accepted: `UDRE` and `TXC` cleared (R34, R141). -/
def acceptStatus (f : Status) : Status := { f with udre := false, txc := false }

/-- The status flags after LOAD: `BUSY` and `UDRE` set (R34, R152). -/
def loadStatus (f : Status) : Status := { f with busy := true, udre := true }

/-- The status flags after FRAME_DONE with a byte waiting: `UDRE` set (R34, R153). -/
def reloadStatus (f : Status) : Status := { f with udre := true }

/-- The status flags after FRAME_DONE with none waiting: `BUSY` cleared, `TXC` set (R34, R153). -/
def drainStatus (f : Status) : Status := { f with busy := false, txc := true }

end Sys2Proof.Machine
end

