-- ==== Sys2Proof/Machine/Ops.lean ====
section
/-! DEFINITION. The operations the commands share: the response (R31), `emit` (R32), recording a
fault (R33, R171, R175: this block's only counterpart of taking an exception, and there is no
return from one, R176), `abort` (R122), `accept` (R141) and `hold while` (R131). -/

namespace Sys2Proof.Machine

/-- The code of a fault record (R171). -/
def faultCode : FaultRecord → Nat
  | .illegalCommand _ => 1
  | .txNotReady _ => 2
  | .configWhilePending => 3
  | .endWhilePending => 4

/-- `FAULTS` as the set of codes, each once and in rising order (R33). -/
def State.faults (s : State) : List Nat :=
  [1, 2, 3, 4].filter fun c => s.faultLog.any fun r => faultCode r == c

/-- The command is accepted: the host receives the response and goes on to its next line (R11,
R31). -/
def respond (r : Word32) (s : State) : State :=
  { s with resps := s.resps ++ [r], hostPc := s.hostPc + 1 }

/-- `raise F(info)`: the fault is recorded and nothing else happens (R171). -/
def raise (r : FaultRecord) (s : State) : State := { s with faultLog := s.faultLog ++ [r] }

/-- `emit(ev)`: the event is appended to the wire log (R10, R32). -/
def emit (e : WireEvent) (s : State) : State := { s with wire := s.wire ++ [e] }

/-- `abort(code)` (R122): with a byte pending, a frame in progress is cut off with an `Aborted`
event, the buffered byte is dropped with none, and the fault is recorded. -/
def abortPending (code : FaultRecord) (s : State) : State :=
  if s.pending then
    let cut := if s.status.busy then emit (.aborted s.shift) s else s
    raise code { cut with status := abortStatus cut.status }
  else s

/-- `accept(d)` (R141), performed only when `READY = 1`. -/
def accept (d : Byte) (s : State) : State :=
  { s with txdata := d, status := acceptStatus s.status }

/-- `hold while c`, then `k` (R131): while `c` holds the command has no effect and no response, so
the state stays as it is and the host stays at the command (DEDUCED, log entry 4). -/
def holdWhile (c : Bool) (k : State → State) (s : State) : Answer :=
  .next (if c then s else k s)

/-- One move is used up: the choice fixed for it, and its number (log entry 2). -/
def State.spend (s : State) : State := { s with sched := s.sched.tail, tick := s.tick + 1 }

end Sys2Proof.Machine
end

