-- ==== Sys2Proof/Machine/Control.lean ====
section
/-! DEFINITION. The peripheral control commands CONFIG, END, POLLRDY, POLLTXC and FLUSH
(41_peripheral_control.md). -/

namespace Sys2Proof.Machine

/-- The registers CONFIG writes once the pending bytes are aborted (R120): all in one transition,
so their order is not observable (R121). -/
def writeConfig (p : Divisor × Bool) (s : State) : State :=
  { s with ctrl := configCtrl p.2, frame := 0x08#8, div := p.1 }

/-- CONFIG (R120, R121, R123). -/
def execConfig (b : Word32) (s : State) : Answer :=
  .next (respond zeroResponse
    (writeConfig (programmed s.params b) (abortPending .configWhilePending s)))

/-- The control bits END writes once the pending bytes are aborted (R124). -/
def writeEnd (s : State) : State := { s with ctrl := endCtrl s.ctrl }

/-- END (R124, R125). -/
def execEnd (s : State) : Answer :=
  .next (respond zeroResponse (writeEnd (abortPending .endWhilePending s)))

/-- POLLRDY (R126, R127). -/
def execPollrdy (s : State) : Answer := .next (respond (flagResponse s.ready) s)

/-- POLLTXC (R128, R129). -/
def execPolltxc (s : State) : Answer := .next (respond (flagResponse s.status.txc) s)

/-- FLUSH is held while `TXC = 0` (R130). -/
def flushHeld (s : State) : Bool := !s.status.txc

/-- FLUSH (R130 to R133). -/
def execFlush (s : State) : Answer := holdWhile (flushHeld s) (respond zeroResponse) s

end Sys2Proof.Machine
end

