-- ==== Sys2Proof/Machine/Transmit.lean ====
section
/-! DEFINITION. The byte transmit commands TXBYTE and TXRAW (42_byte_transmit.md), and what an
illegal command word does (R76). -/

namespace Sys2Proof.Machine

/-- TXBYTE is held while `READY = 0` (R140). -/
def txbyteHeld (s : State) : Bool := !s.ready

/-- TXBYTE (R140, R142). -/
def execTxbyte (d : Byte) (s : State) : Answer :=
  holdWhile (txbyteHeld s) (fun t => respond zeroResponse (accept d t)) s

/-- TXRAW (R143): accepted when ready, else the byte is discarded and the fault recorded (R144). -/
def execTxraw (d : Byte) (s : State) : Answer :=
  .next (respond zeroResponse (if s.ready then accept d s else raise (.txNotReady d) s))

/-- A word that decodes to ILLEGAL: no block state changes, the fault is recorded, and the response
is 0 (R76). -/
def execIllegal (w : CmdWord) (s : State) : Answer :=
  .next (respond zeroResponse (raise (.illegalCommand w) s))

end Sys2Proof.Machine
end

