-- ==== Sys2Proof/Machine/Dispatch.lean ====
section
/-! DEFINITION. The dispatch: one arm per command, each a call of its meaning. -/

namespace Sys2Proof.Machine

def exec (i : Instr) (s : State) : Host.Outcome State Fault Refusal :=
  match i with
  | .config b => Sys2Proof.Machine.execConfig b s
  | .endCmd => Sys2Proof.Machine.execEnd s
  | .txbyte d => Sys2Proof.Machine.execTxbyte d s
  | .txraw d => Sys2Proof.Machine.execTxraw d s
  | .pollrdy => Sys2Proof.Machine.execPollrdy s
  | .polltxc => Sys2Proof.Machine.execPolltxc s
  | .flush => Sys2Proof.Machine.execFlush s

end Sys2Proof.Machine
end

