-- ==== Sys2Proof/Machine/Engine.lean ====
section
/-! DEFINITION. The transmit engine, the block's second agent: LOAD and FRAME_DONE
(43_transmit_engine.md). -/

namespace Sys2Proof.Machine

/-- LOAD is enabled (R151). -/
def State.loadEnabled (s : State) : Bool := s.enabled && !s.status.udre && !s.status.busy

/-- FRAME_DONE is enabled (R151). -/
def State.frameDoneEnabled (s : State) : Bool := s.enabled && s.status.busy

/-- Some step of the engine is enabled; otherwise the engine is idle (R151). -/
def State.engineEnabled (s : State) : Bool := s.loadEnabled || s.frameDoneEnabled

/-- LOAD (R152). -/
def load (s : State) : State := { s with shift := s.txdata, status := loadStatus s.status }

/-- FRAME_DONE (R153). -/
def frameDone (s : State) : State :=
  let sent := emit (.frame s.shift s.div s.ctrl.u2x s.frame) s
  if s.status.udre then { sent with status := drainStatus s.status }
  else { sent with shift := s.txdata, status := reloadStatus s.status }

/-- The engine's step; an idle engine takes none (R151, R154). -/
def engineMove (s : State) : State :=
  if s.loadEnabled then load s else if s.frameDoneEnabled then frameDone s else s

/-- `n` steps of the engine with none of the host between them. -/
def engineMoves : Nat → State → State
  | 0, s => s
  | n + 1, s => engineMoves n (engineMove s)

end Sys2Proof.Machine
end

