-- ==== Sys2Proof/Machine/Agents.lean ====
section
/-! DEFINITION. The two agents (R13): what the host's next line does (R11), when it is enabled
(R131, R156), and which agent makes the next move (R150, R159). -/

namespace Sys2Proof.Machine

/-- The host's next line. -/
def State.currentLine (s : State) : Option HostLine := s.prog[s.hostPc]?

/-- The host has stopped issuing commands: it is at `HALT` (R11), or has no line left, which acts
as `HALT` (DESIGN CHOICE, log entry 8). -/
def State.halted (s : State) : Bool :=
  match s.currentLine with
  | none => true
  | some .halt => true
  | some (.issue _) => false
  | some (.bz _) => false
  | some (.b _) => false

/-- The command is held in this state (R131): TXBYTE while not ready, FLUSH while `TXC = 0`. -/
def commandHeld (i : Instr) (s : State) : Bool :=
  match i with
  | .config _ => false
  | .endCmd => false
  | .txbyte _ => txbyteHeld s
  | .txraw _ => false
  | .pollrdy => false
  | .polltxc => false
  | .flush => flushHeld s

/-- The host is held at the command it has issued (R131). An illegal word is never held (R76). -/
def State.hostHeld (s : State) : Bool :=
  match s.currentLine with
  | some (.issue w) =>
    match decode w with
    | some i => commandHeld i s
    | none => false
  | _ => false

/-- The host's next step is enabled: it is disabled only while held or at `HALT` (R156). -/
def State.hostEnabled (s : State) : Bool := !s.halted && !s.hostHeld

/-- The last response, which `BZ` reads (R11, R31); before any response it is the free value of log
entry 7. -/
def State.lastResp (s : State) : Word32 := s.resps.getLast?.getD Config.respBeforeFirst

/-- A command word issued to the block: decoded first (R174), then executed. -/
def issueWord (w : CmdWord) (s : State) : Answer :=
  match decode w with
  | some i => exec i s
  | none => execIllegal w s

/-- The host's step at its next line (R11). -/
def hostMove (s : State) : Answer :=
  match s.currentLine with
  | some (.issue w) => issueWord w s
  | some (.bz t) => .next { s with hostPc := if s.lastResp.getLsbD 0 then s.hostPc + 1 else t }
  | some (.b t) => .next { s with hostPc := t }
  | some .halt => .next s
  | none => .next s

/-- The agent favoured for the next move: the one fixed from outside, else the free choice of log
entry 2. -/
def State.favoured (s : State) : Agent := s.sched.head?.getD (Config.schedule s.tick)

/-- The agent that makes the next move: of two enabled agents the favoured one, else the one that is
enabled; none in a hang or when all is done (R131, R150, R156, log entries 2 and 3). -/
def State.mover (s : State) : Option Agent :=
  if s.hostEnabled then
    if s.engineEnabled then some s.favoured else some .host
  else if s.engineEnabled then some .engine
  else none

/-- The move of an agent. -/
def moveOf : Agent → State → Answer
  | .host, s => hostMove s
  | .engine, s => .next (engineMove s)

/-- The state with the given program loaded at its first line, and the host to move first. This
stands for the load from outside the machine (log entry 17). -/
def State.withProgram (s : State) (p : List HostLine) : State :=
  { s with prog := p, hostPc := 0, sched := .host :: s.sched }

end Sys2Proof.Machine
end

