-- ==== Sys2Proof/Machine/Step.lean ====
section
/-! DEFINITION. One step of the whole machine, and the placing of a command word where the next step
issues it. -/

namespace Sys2Proof.Machine

/-- One atomic move of one agent (R13, R55). Where no agent is enabled, in a hang or when the host
has halted and the engine is idle, the machine stays as it is (R131; log entry 3). -/
def step (s : State) : Host.Outcome State Fault Refusal :=
  match s.mover with
  | some a => moveOf a s.spend
  | none => .next s

/-- `s` with the opcode table's word `w` as the command the host issues in the very next step: the
host agent's program is that one command, and the host moves first (log entry 17). -/
def State.withFetchWord (s : State) (nbits w : Nat) : State :=
  s.withProgram [.issue (tableWord nbits w)]

end Sys2Proof.Machine
end

