-- ==== Sys2Proof/Machine/AsmText.lean ====
section
/-! DEFINITION. The text form of a command (30_encoding.md R80): its mnemonic in upper case, then at
most one operand. The spec does not say how the two are separated: one or more spaces, and none at
the end (DESIGN CHOICE, log entry 18). -/

namespace Sys2Proof.Machine

/-- The value of a digit in a base up to 16; both cases of a hexadecimal digit are read. -/
def digitValue (base : Nat) (c : Char) : Option Nat :=
  let n := c.toNat
  let v :=
    if 48 ≤ n ∧ n ≤ 57 then n - 48
    else if 65 ≤ n ∧ n ≤ 70 then n - 55
    else if 97 ≤ n ∧ n ≤ 102 then n - 87
    else base
  if v < base then some v else none

/-- The number written by digits in a base, continuing from `acc`. -/
def digitsValue (base : Nat) : Nat → List Char → Option Nat
  | acc, [] => some acc
  | acc, c :: cs =>
    match digitValue base c with
    | some v => digitsValue base (base * acc + v) cs
    | none => none

/-- A number of at least one digit. -/
def numberValue (base : Nat) (cs : List Char) : Option Nat :=
  if cs.isEmpty then none else digitsValue base 0 cs

/-- The operand of CONFIG: decimal or `0x` hexadecimal (R80). -/
def baudLiteral : List Char → Option Nat
  | '0' :: 'x' :: cs => numberValue 16 cs
  | cs => numberValue 10 cs

/-- The operand of TXBYTE and TXRAW: decimal, `0x` hexadecimal, `0b` binary, or a character literal
meaning its ASCII code (R80; PRESUMED, log entry 18). -/
def byteLiteral : List Char → Option Nat
  | '0' :: 'x' :: cs => numberValue 16 cs
  | '0' :: 'b' :: cs => numberValue 2 cs
  | ['\'', '\\', 'r', '\''] => some 0x0D
  | ['\'', '\\', 'n', '\''] => some 0x0A
  | ['\'', c, '\''] => if c.toNat < 128 then some c.toNat else none
  | cs => numberValue 10 cs

/-- The operand text after the mnemonic: empty, or what follows one or more spaces. -/
def operandText (cs : List Char) : List Char := cs.dropWhile (· == ' ')

/-- The command a line of text names (R80). -/
def parseCmd (cs : List Char) : Option AsmCmd :=
  let name := cs.takeWhile (· != ' ')
  let rest := cs.dropWhile (· != ' ')
  let operand := operandText rest
  if name = ['C', 'O', 'N', 'F', 'I', 'G'] then (baudLiteral operand).map .config
  else if name = ['T', 'X', 'B', 'Y', 'T', 'E'] then (byteLiteral operand).map .txbyte
  else if name = ['T', 'X', 'R', 'A', 'W'] then (byteLiteral operand).map .txraw
  else if rest ≠ [] then none
  else if name = ['E', 'N', 'D'] then some .endCmd
  else if name = ['P', 'O', 'L', 'L', 'R', 'D', 'Y'] then some .pollrdy
  else if name = ['P', 'O', 'L', 'L', 'T', 'X', 'C'] then some .polltxc
  else if name = ['F', 'L', 'U', 'S', 'H'] then some .flush
  else none

/-- The command a line of text assembles to; `none` is an assembly error (R80). -/
def assembleText (cs : List Char) : Option Instr := (parseCmd cs).bind assembleCmd

end Sys2Proof.Machine
end

