-- ==== Sys2Proof/Machine/Expand.lean ====
section
/-! DEFINITION. The host-side expansions of the pseudo-instructions (30_encoding.md R82 to R84).
They are not commands of the block. Character codes are ASCII (PRESUMED, log entry 18). -/

namespace Sys2Proof.Machine

/-- The program line that issues a command. -/
def issueCmd (i : Instr) : HostLine := .issue (encode i)

/-- The ASCII code of '0' or '1' for one bit (R84). -/
def bitChar (b : Bool) : Byte := if b then 0x31#8 else 0x30#8

/-- The bytes `PRINTBIN d` sends: "0b", four high bits, a space, four low bits (R84). -/
def binText (d : Byte) : List Byte :=
  [0x30#8, 0x62#8, bitChar (d.getLsbD 7), bitChar (d.getLsbD 6), bitChar (d.getLsbD 5),
    bitChar (d.getLsbD 4), 0x20#8, bitChar (d.getLsbD 3), bitChar (d.getLsbD 2),
    bitChar (d.getLsbD 1), bitChar (d.getLsbD 0)]

/-- Character number `n[3:0]` of "0123456789abcdef" (R84). -/
def digitChar (n : Byte) : Byte :=
  let k := n.extractLsb' 0 4
  if k.toNat < 10 then 0x30#8 + k.setWidth 8 else 0x57#8 + k.setWidth 8

/-- One TXBYTE per byte, in order (R84). -/
def sendBytes (bs : List Byte) : List HostLine := bs.map fun b => issueCmd (.txbyte b)

/-- The lines a pseudo-instruction stands for, when the first of them is line `base` of the
program (R82 to R84). -/
def expand (base : Nat) : Pseudo → List HostLine
  | .begin none => [issueCmd (.config Config.baudDefault)]
  | .begin (some b) => [issueCmd (.config b)]
  | .waitRdy => [issueCmd .pollrdy, .bz base]
  | .txbytePolling d => [issueCmd .pollrdy, .bz base, issueCmd (.txraw d)]
  | .flushPolling => [issueCmd .polltxc, .bz base]
  | .println => sendBytes [0x0D#8, 0x0A#8]
  | .txBlock bytes => sendBytes bytes
  | .txStr none => []
  | .txStr (some text) => sendBytes (text.takeWhile fun b => b != 0#8)
  | .printBin d => sendBytes (binText d)
  | .printDigit n => sendBytes [digitChar n]

end Sys2Proof.Machine
end

