-- ==== Sys2Proof/Machine/Wire.lean ====
section
/-! DEFINITION. The bit-level form of the wire (20_memory.md R51). Informational: no state rule
reads it, since `WIRE` records whole bytes (PRESUMED, general knowledge, log entry 12). -/

namespace Sys2Proof.Machine

/-- The idle level of the line (R51). -/
def idleLevel : Bool := true

/-- The levels of a frame in time order: the start bit 0, the eight data bits least significant
first, the stop bit 1 (R51). -/
def frameLevels (d : Byte) : List Bool :=
  [false, d.getLsbD 0, d.getLsbD 1, d.getLsbD 2, d.getLsbD 3, d.getLsbD 4, d.getLsbD 5,
    d.getLsbD 6, d.getLsbD 7, true]

/-- The levels of event `n` of the wire log; an aborted frame's are a free value (U5, log entry
13). -/
def eventLevels (n : Nat) : WireEvent → List Bool
  | .frame d _ _ _ => frameLevels d
  | .aborted d => Config.abortedLevels n d

/-- The levels of the events of a wire log from event `n` on, the idle time between them left out. -/
def pinLevels : Nat → List WireEvent → List Bool
  | _, [] => []
  | n, e :: es => eventLevels n e ++ pinLevels (n + 1) es

/-- The byte a wire event carries (R32, R60). -/
def eventByte : WireEvent → Byte
  | .frame d _ _ _ => d
  | .aborted d => d

/-- The event is a frame in the format 8N1, or an aborted frame (R155). -/
def event8N1 : WireEvent → Bool
  | .frame _ _ _ format => format == 0x08#8
  | .aborted _ => true

/-- The event is an aborted frame (R32). -/
def eventAborted : WireEvent → Bool
  | .frame _ _ _ _ => false
  | .aborted _ => true

end Sys2Proof.Machine
end

