-- ==== Sys2Proof/Safety.lean ====
section
/-! DEFINITION. What counts as a safe run: how a run ends and what is observed of it (00_scope.md
R14, 41_peripheral_control.md R131, 60_exceptions.md R172), the invariants (10_state.md R36), the
hazards and the intended order of commands (70_reset_and_hazards.md R193, R194). -/

namespace Sys2Proof.Machine

/-- No engine step is enabled (R14). -/
def State.quiescent (s : State) : Bool := !s.engineEnabled

/-- The host is held and no engine step can lift the hold: the run hangs (R131). -/
def State.hung (s : State) : Bool := s.hostHeld && s.quiescent

/-- The host is at `HALT` and the engine is idle: the run has ended (R14). -/
def State.terminated (s : State) : Bool := s.halted && s.quiescent

/-- The command at which the host is: its next line issues it (R11, R77). -/
def State.issuing (s : State) : Option Instr :=
  match s.currentLine with
  | some (.issue w) => decode w
  | some (.bz _) => none
  | some (.b _) => none
  | some .halt => none
  | none => none

/-- The two states agree but for register contents that mean nothing: `TXDATA` while `UDRE = 1` and
`SHIFT` while `BUSY = 0` (R29, R30). -/
def State.agreeOnLive (s s' : State) : Prop :=
  s' = { s with txdata := s'.txdata, shift := s'.shift } ∧
    (s.status.udre = false → s'.txdata = s.txdata) ∧
    (s.status.busy = true → s'.shift = s.shift)

/-- How far a run is (R14). -/
inductive RunEnd where
  /-- Some agent can move. -/
  | running
  /-- The run ended with the host at `HALT`. -/
  | terminated
  /-- The run ended with the host held forever. -/
  | hung
  deriving DecidableEq, Repr

/-- Whether the run can go on, has terminated, or hangs (R14). -/
def State.runEnd (s : State) : RunEnd :=
  if s.hung then .hung else if s.terminated then .terminated else .running

/-- What is observed of a run (R14, D25): the responses, the wire, the fault set, the final
registers and how the run ended. -/
structure Observation where
  resps : List Word32
  wire : List WireEvent
  faults : List Nat
  ctrl : Byte
  frame : Byte
  div : Divisor
  status : Byte
  txdata : Byte
  shift : Byte
  ended : RunEnd
  deriving DecidableEq, Repr

/-- The observation of a state (R14). -/
def State.observe (s : State) : Observation where
  resps := s.resps
  wire := s.wire
  faults := s.faults
  ctrl := ctrlWord s.ctrl
  frame := s.frame
  div := s.div
  status := s.statusWord
  txdata := s.txdata
  shift := s.shift
  ended := s.runEnd

/-- A good final state: terminated with `FAULTS = ∅` (R172). -/
def State.goodFinal (s : State) : Bool := s.terminated && s.faults.isEmpty

/-- An endless run under weak fairness of both agents (R156): each state is the step of the one
before it, and an agent whose step stays enabled eventually moves. The machine itself does not
build fairness in (log entry 19). -/
structure WeaklyFair (run : Nat → State) : Prop where
  steps : ∀ n, step (run n) = .next (run (n + 1))
  engine : ∀ n, (∀ m, n ≤ m → (run m).engineEnabled = true) →
    ∃ m, n ≤ m ∧ (run m).mover = some .engine
  host : ∀ n, (∀ m, n ≤ m → (run m).hostEnabled = true) →
    ∃ m, n ≤ m ∧ (run m).mover = some .host

/-- The bytes the block has taken and not dropped, in order: those `WIRE` carries, then those in
the pipeline (R60). -/
def State.flow (s : State) : List Byte := s.wire.map eventByte ++ s.pipeline

/-- The event the engine appends for a byte sent in the present configuration (R153, R155). -/
def State.frameOf (s : State) (d : Byte) : WireEvent := .frame d s.div s.ctrl.u2x s.frame

/-- The invariant of the reachable states: I1 and I2 of R36, the one frame format (R24), no
interrupt enable set (R173), every frame on the wire 8N1 (R155), and an aborted frame only with the
fault of an abort recorded (R122, U5). -/
structure State.Inv (s : State) : Prop where
  /-- I1 (R36). -/
  pendingEnabled : s.pending = true → s.enabled = true
  /-- I2 (R36). -/
  completeIdle : s.status.txc = true → s.pending = false
  /-- `FRAME` is 0x08 in every reachable state (R24). -/
  frameFormat : s.frame = 0x08#8
  /-- The interrupt enables are never 1 (R173). -/
  noInterrupts : s.ctrl.txcie = false ∧ s.ctrl.udrie = false ∧ s.ctrl.rxcie = false
  /-- Every frame is 8N1 (R155). -/
  wire8N1 : ∀ e ∈ s.wire, event8N1 e = true
  /-- An aborted frame is always with fault 3 or 4 (U5). -/
  abortedFaulted : (∃ e ∈ s.wire, eventAborted e = true) →
    FaultRecord.configWhilePending ∈ s.faultLog ∨ FaultRecord.endWhilePending ∈ s.faultLog

/-- The hazards of R194 that a command meets in a state; HZ6 and HZ7 are outside the model. -/
inductive Hazard where
  /-- TXRAW while `READY = 0`. -/
  | hz1
  /-- END while a byte is pending. -/
  | hz2
  /-- CONFIG while a byte is pending. -/
  | hz3
  /-- TXBYTE while not configured. -/
  | hz4
  /-- FLUSH with nothing sent since reset or the last abort. -/
  | hz5
  deriving DecidableEq, Repr

/-- The hazard a command meets when it is issued in a state (R194). -/
def hazard (i : Instr) (s : State) : Option Hazard :=
  match i with
  | .config _ => if s.pending then some .hz3 else none
  | .endCmd => if s.pending then some .hz2 else none
  | .txbyte _ => if s.enabled then none else some .hz4
  | .txraw _ => if s.ready then none else some .hz1
  | .pollrdy => none
  | .polltxc => none
  | .flush => if s.status.txc || s.pending then none else some .hz5

/-- The phases of the intended order of commands (R193). -/
inductive Phase where
  | start
  | sending
  /-- In the sending phase, right after a POLLRDY: `WAITRDY` ends with one. -/
  | polled
  | flushed
  | ended
  deriving DecidableEq, Repr

/-- The phase after a command of the intended order; `none` if it is out of order (R193). -/
def phaseAfter : Phase → Instr → Option Phase
  | .start, .config _ => some .sending
  | .sending, .txbyte _ => some .sending
  | .sending, .pollrdy => some .polled
  | .sending, .polltxc => some .sending
  | .sending, .flush => some .flushed
  | .polled, .txbyte _ => some .sending
  | .polled, .txraw _ => some .sending
  | .polled, .pollrdy => some .polled
  | .polled, .polltxc => some .sending
  | .polled, .flush => some .flushed
  | .flushed, .endCmd => some .ended
  | _, _ => none

/-- The commands are one session in the intended order: CONFIG, then sends and polls, then FLUSH,
then optionally END (R193). -/
def intendedOrder (is : List Instr) : Bool :=
  let last : Option Phase := is.foldl (fun p i => p.bind (phaseAfter · i)) (some .start)
  last == some .flushed || last == some .ended

end Sys2Proof.Machine
end

