-- ==== Sys2Proof/Certificates/Slice0/Obligations.lean ====
section
/-! DEFINITION. The statements for the provers: what the numbered rules of spec/ say the commands,
the engine, the calculator and the whole machine do. OBLIGATIONS.json lists them with the rules
they rest on. -/

open Sys2Proof Sys2Proof.Machine

/-! ### Encoding -/

/-- R81, L2.2: words written out in the spec decode to the commands it names, or to none. -/
def Obligations.SpecWordsDecode : Prop :=
  decode 0x0100002580#40 = some (.config 9600#32) ∧
  decode 0x01FFFFFFFF#40 = some (.config 4294967295#32) ∧
  decode 0x0200000000#40 = some .endCmd ∧
  decode 0x0300000048#40 = some (.txbyte 0x48#8) ∧
  decode 0x0400000087#40 = some (.txraw 0x87#8) ∧
  decode 0x0500000000#40 = some .pollrdy ∧
  decode 0x0600000000#40 = some .polltxc ∧
  decode 0x0700000000#40 = some .flush ∧
  decode 0x0000000000#40 = none ∧
  decode 0x0300000100#40 = none ∧
  decode 0x0200000001#40 = none

/-- R71 to R77: decoding the word of a command gives that command, at every value of its operand,
and a word that decodes to a command is that command's word. -/
def Obligations.DecodeEncodeAgree : Prop :=
  (∀ i : Instr, decode (encode i) = some i) ∧
    ∀ (w : CmdWord) (i : Instr), decode w = some i → encode i = w

/-- R72: each row's match and mask select exactly the words of its command, with the operand the
row's field holds; at most one row matches a word. -/
def Obligations.TableRowsDecode : Prop :=
  ∀ w : CmdWord,
    (w &&& 0xFF00000000#40 = 0x0100000000#40 ↔
      decode w = some (.config (w.extractLsb' 0 32))) ∧
    (w &&& 0xFFFFFFFFFF#40 = 0x0200000000#40 ↔ decode w = some .endCmd) ∧
    (w &&& 0xFFFFFFFF00#40 = 0x0300000000#40 ↔ decode w = some (.txbyte (w.extractLsb' 0 8))) ∧
    (w &&& 0xFFFFFFFF00#40 = 0x0400000000#40 ↔ decode w = some (.txraw (w.extractLsb' 0 8))) ∧
    (w &&& 0xFFFFFFFFFF#40 = 0x0500000000#40 ↔ decode w = some .pollrdy) ∧
    (w &&& 0xFFFFFFFFFF#40 = 0x0600000000#40 ↔ decode w = some .polltxc) ∧
    (w &&& 0xFFFFFFFFFF#40 = 0x0700000000#40 ↔ decode w = some .flush)

/-- R76: a word is illegal when no row of the table selects it, that is in exactly the two cases the
rule gives; issued in any state it records IllegalCommand, answers 0, and changes nothing else. -/
def Obligations.IllegalWordsChangeNothing : Prop :=
  ∀ w : CmdWord,
    (decode w = none ↔ ∀ r ∈ opcodeTable, w &&& r.mask ≠ r.pattern) ∧
    (decode w = none ↔
      w.extractLsb' 32 8 = 0x00#8 ∨ 0x08#8 ≤ w.extractLsb' 32 8 ∨
      (w.extractLsb' 32 8 ∈ [0x02#8, 0x05#8, 0x06#8, 0x07#8] ∧ w.extractLsb' 0 32 ≠ 0#32) ∨
      (w.extractLsb' 32 8 ∈ [0x03#8, 0x04#8] ∧ w.extractLsb' 8 24 ≠ 0#24)) ∧
    (decode w = none → ∀ s : State,
      issueWord w s = .next { s with
        faultLog := s.faultLog ++ [.illegalCommand w]
        resps := s.resps ++ [0#32]
        hostPc := s.hostPc + 1 })

/-! ### The step -/

/-- R13, R55: a step is one move of one agent, on the state with one choice used up; where no agent
is enabled the state stays as it is. Who moves is the model's choice within R159 (log entry 2); that
the state stays is read from R131 (log entry 3). -/
def Obligations.StepMovesOneAgent : Prop :=
  ∀ s : State,
    (s.mover = some .host →
      step s = hostMove { s with sched := s.sched.tail, tick := s.tick + 1 }) ∧
    (s.mover = some .engine →
      step s = .next (engineMove { s with sched := s.sched.tail, tick := s.tick + 1 })) ∧
    (s.mover = none → step s = .next s)

/-- R11, R77: when the host's next line issues a word that decodes to `i` and the host moves, the
step is `exec i` on the state with one choice used up (log entries 1 and 2). -/
def Obligations.StepRunsDecodedCommand : Prop :=
  ∀ (s : State) (w : CmdWord) (i : Instr),
    s.currentLine = some (.issue w) → decode w = some i → s.mover = some .host →
      step s = exec i { s with sched := s.sched.tail, tick := s.tick + 1 }

/-- R150, R159: where both agents are enabled, either may move next, as the schedule held in the state
says (the model's choice, log entry 2). -/
def Obligations.EitherAgentMayMove : Prop :=
  ∀ (s : State) (a : Agent) (rest : List Agent),
    s.hostEnabled = true → s.engineEnabled = true →
      step { s with sched := a :: rest } =
        match a with
        | .host => hostMove { s with sched := rest, tick := s.tick + 1 }
        | .engine => .next (engineMove { s with sched := rest, tick := s.tick + 1 })

/-- R11: BZ branches iff bit 0 of the last response is 0, B branches always, and neither touches
anything but the host's next line; at HALT the host issues nothing more. The host agent in the state
is the model's choice (log entry 1). -/
def Obligations.HostLinesBranch : Prop :=
  ∀ (s : State) (n : Nat),
    (∀ (before : List Word32) (r : Word32), s.currentLine = some (.bz n) →
      s.resps = before ++ [r] →
      hostMove s = .next { s with hostPc := if r.getLsbD 0 = false then n else s.hostPc + 1 }) ∧
    (s.currentLine = some (.b n) → hostMove s = .next { s with hostPc := n }) ∧
    (s.currentLine = some .halt → s.hostEnabled = false ∧ s.mover ≠ some .host)

/-- R170: no command, legal or not, and no step ever stops the machine (log entry 21; a run goes on
after a fault record, log entry 10). -/
def Obligations.NothingStops : Prop :=
  (∀ (w : CmdWord) (s : State), ∃ t, issueWord w s = .next t) ∧
    ∀ s : State, ∃ t, step s = .next t

/-- R131: while a command is held its execution changes nothing and answers nothing, the host does
not move, and only the engine can lift the hold (the unchanged state is log entry 4). -/
def Obligations.HeldCommandsWait : Prop :=
  ∀ (s : State) (i : Instr), s.issuing = some i → commandHeld i s = true →
    exec i s = .next s ∧ s.mover ≠ some .host ∧
      ((∃ d, i = .txbyte d ∧ s.ready = false) ∨ (i = .flush ∧ s.status.txc = false)) ∧
      ∀ t, step s = .next t → t.hostPc = s.hostPc ∧ t.resps = s.resps

/-! ### CONFIG and END -/

/-- R120, R123: CONFIG in every state: the abort of pending bytes, the control bits, the format, the
calculator's divisor modulo 4096 and flag, response 0; everything else unchanged. -/
def Obligations.ConfigResult : Prop :=
  ∀ (s : State) (b : Word32),
    exec (.config b) s = .next { s with
      ctrl := ⟨true, true, true,
        (baudCalc s.params.arith s.params.clkHz.toNat b.toNat).2, false, false, false⟩
      frame := 0x08#8
      div := BitVec.ofInt 12 (baudCalc s.params.arith s.params.clkHz.toNat b.toNat).1
      status := ⟨true, s.status.txc, false⟩
      wire := if s.status.busy then s.wire ++ [.aborted s.shift] else s.wire
      faultLog :=
        if s.status.busy = true ∨ s.status.udre = false then s.faultLog ++ [.configWhilePending]
        else s.faultLog
      resps := s.resps ++ [0#32]
      hostPc := s.hostPc + 1 }

/-- R124: END in every state: the abort of pending bytes, PWR, TXEN and RXEN cleared, response 0;
everything else unchanged. -/
def Obligations.EndResult : Prop :=
  ∀ s : State,
    exec .endCmd s = .next { s with
      ctrl := { s.ctrl with pwr := false, txen := false, rxen := false }
      status := ⟨true, s.status.txc, false⟩
      wire := if s.status.busy then s.wire ++ [.aborted s.shift] else s.wire
      faultLog :=
        if s.status.busy = true ∨ s.status.udre = false then s.faultLog ++ [.endWhilePending]
        else s.faultLog
      resps := s.resps ++ [0#32]
      hostPc := s.hostPc + 1 }

/-- R125: after one END nothing is pending and the block is off, `DIV`, `U2X` and `FRAME` are kept,
and a second END changes no block state. -/
def Obligations.EndIsIdempotent : Prop :=
  ∀ s t : State, exec .endCmd s = .next t →
    t.pending = false ∧ t.ctrl.pwr = false ∧ t.ctrl.txen = false ∧ t.ctrl.rxen = false ∧
    t.div = s.div ∧ t.ctrl.u2x = s.ctrl.u2x ∧ t.frame = s.frame ∧
    exec .endCmd t = .next { t with resps := t.resps ++ [0#32], hostPc := t.hostPc + 1 }

/-- R122: what an abort does with a byte pending and without; `TXC` stays 0; CONFIG and END are the
two commands that do it. -/
def Obligations.AbortDiscardsPending : Prop :=
  (∀ (code : FaultRecord) (s : State), s.status.busy = true ∨ s.status.udre = false →
    abortPending code s = { s with
      wire := if s.status.busy = true then s.wire ++ [.aborted s.shift] else s.wire
      status := { s.status with udre := true, busy := false }
      faultLog := s.faultLog ++ [code] }) ∧
  (∀ (code : FaultRecord) (s : State), s.status.busy = false → s.status.udre = true →
    abortPending code s = s) ∧
  (∀ (code : FaultRecord) (s : State), s.Inv → s.status.busy = true ∨ s.status.udre = false →
    (abortPending code s).status.txc = false) ∧
  (∀ (b : Word32) (s : State),
    exec (.config b) s = exec (.config b) (abortPending .configWhilePending s)) ∧
  (∀ s : State, exec .endCmd s = exec .endCmd (abortPending .endWhilePending s))

/-- The frame of CONFIG and END (R34, R120, R124): what they leave unchanged. -/
def Obligations.ControlCommandsFrame : Prop :=
  ∀ (s t : State) (i : Instr), i = .endCmd ∨ (∃ b, i = .config b) → exec i s = .next t →
    t = { s with
      ctrl := t.ctrl, frame := t.frame, div := t.div, wire := t.wire, faultLog := t.faultLog
      status := { s.status with udre := t.status.udre, busy := t.status.busy }
      resps := t.resps, hostPc := t.hostPc } ∧
    (i = .endCmd → t.frame = s.frame ∧ t.div = s.div ∧
      t.ctrl = { s.ctrl with pwr := t.ctrl.pwr, txen := t.ctrl.txen, rxen := t.ctrl.rxen })

/-! ### The polls and FLUSH -/

/-- R126: POLLRDY answers `READY` zero-extended and changes no block state. -/
def Obligations.PollrdyResult : Prop :=
  ∀ s : State,
    exec .pollrdy s = .next { s with
      resps := s.resps ++
        [if s.ctrl.pwr = true ∧ s.ctrl.txen = true ∧ s.status.udre = true then 1#32 else 0#32]
      hostPc := s.hostPc + 1 }

/-- R129: POLLTXC answers `TXC` whatever `PWR` and `TXEN` are, and the flag holds its value through
END. -/
def Obligations.PolltxcResult : Prop :=
  (∀ s : State,
    exec .polltxc s = .next { s with
      resps := s.resps ++ [if s.status.txc = true then 1#32 else 0#32]
      hostPc := s.hostPc + 1 }) ∧
  ∀ s t : State, exec .endCmd s = .next t → t.status.txc = s.status.txc

/-- R127: POLLRDY is never held; only an engine step (from 0 to 1) or CONFIG, END, TXBYTE or TXRAW
changes what it would answer; and any number of them leave the block as one does. -/
def Obligations.ReadyChangesOnlyBy : Prop :=
  (∀ s : State, commandHeld .pollrdy s = false) ∧
  (∀ s t u : State, exec .pollrdy s = .next t → exec .pollrdy t = .next u →
    { u with resps := t.resps, hostPc := t.hostPc } = t) ∧
  ∀ s t : State, step s = .next t → t.ready ≠ s.ready →
    (s.mover = some .engine ∧ s.ready = false) ∨
    (s.mover = some .host ∧ ∃ i, s.issuing = some i ∧
      ((∃ b, i = .config b) ∨ i = .endCmd ∨ (∃ d, i = .txbyte d) ∨ ∃ d, i = .txraw d))

/-- R130: FLUSH completes when `TXC = 1`, with response 0 and no block state changed. -/
def Obligations.FlushCompletes : Prop :=
  ∀ s : State, s.status.txc = true →
    exec .flush s = .next { s with resps := s.resps ++ [0#32], hostPc := s.hostPc + 1 }

/-- The frame of POLLRDY, POLLTXC and FLUSH (R56): no block state, no log, nothing but the response
and the host's next line. -/
def Obligations.PollsFrame : Prop :=
  ∀ (s t : State) (i : Instr), i = .pollrdy ∨ i = .polltxc ∨ i = .flush → exec i s = .next t →
    t = { s with resps := t.resps, hostPc := t.hostPc }

/-! ### TXBYTE and TXRAW -/

/-- R140, R141: TXBYTE completes when `READY = 1`: the byte is in `TXDATA`, `UDRE` and `TXC` are
cleared, response 0. -/
def Obligations.TxbyteCompletes : Prop :=
  ∀ (s : State) (d : Byte), s.ctrl.pwr = true → s.ctrl.txen = true → s.status.udre = true →
    exec (.txbyte d) s = .next { s with
      txdata := d
      status := { s.status with udre := false, txc := false }
      resps := s.resps ++ [0#32]
      hostPc := s.hostPc + 1 }

/-- R143, R141: TXRAW when `READY = 1` writes the byte as TXBYTE does. -/
def Obligations.TxrawAccepted : Prop :=
  ∀ (s : State) (d : Byte), s.ctrl.pwr = true → s.ctrl.txen = true → s.status.udre = true →
    exec (.txraw d) s = .next { s with
      txdata := d
      status := { s.status with udre := false, txc := false }
      resps := s.resps ++ [0#32]
      hostPc := s.hostPc + 1 }

/-- R144: TXRAW when not ready changes no block state and puts nothing on the wire; the fault
TxNotReady is recorded. -/
def Obligations.TxrawDiscarded : Prop :=
  ∀ (s : State) (d : Byte), ¬(s.ctrl.pwr = true ∧ s.ctrl.txen = true ∧ s.status.udre = true) →
    exec (.txraw d) s = .next { s with
      faultLog := s.faultLog ++ [.txNotReady d]
      resps := s.resps ++ [0#32]
      hostPc := s.hostPc + 1 }

/-- R83: once ready, after any number of engine steps, TXRAW is accepted and does what TXBYTE
does. -/
def Obligations.TxrawAfterReadyIsTxbyte : Prop :=
  ∀ (n : Nat) (s : State) (d : Byte), s.ready = true →
    (engineMoves n s).ready = true ∧
    exec (.txraw d) (engineMoves n s) = exec (.txbyte d) (engineMoves n s) ∧
    ∃ t, exec (.txraw d) (engineMoves n s) = .next t ∧ t.txdata = d ∧ t.status.udre = false ∧
      t.faultLog = s.faultLog

/-- The frame of TXBYTE and TXRAW (R34, R141, R143): what they leave unchanged. -/
def Obligations.TransmitCommandsFrame : Prop :=
  ∀ (s t : State) (d : Byte) (i : Instr), i = .txbyte d ∨ i = .txraw d → exec i s = .next t →
    t = { s with
      txdata := t.txdata
      status := { s.status with udre := t.status.udre, txc := t.status.txc }
      faultLog := t.faultLog, resps := t.resps, hostPc := t.hostPc } ∧
    (s.ready = false → t.txdata = s.txdata ∧ t.status = s.status) ∧
    (i = .txbyte d → t.faultLog = s.faultLog)

/-! ### The engine -/

/-- R151: when LOAD and FRAME_DONE are enabled, never both; with neither the engine is idle. -/
def Obligations.EngineStepsEnabled : Prop :=
  ∀ s : State,
    (s.loadEnabled = true ↔ s.ctrl.pwr = true ∧ s.ctrl.txen = true ∧ s.status.udre = false ∧
      s.status.busy = false) ∧
    (s.frameDoneEnabled = true ↔ s.ctrl.pwr = true ∧ s.ctrl.txen = true ∧
      s.status.busy = true) ∧
    ¬(s.loadEnabled = true ∧ s.frameDoneEnabled = true) ∧
    (s.loadEnabled = false → s.frameDoneEnabled = false →
      engineMove s = s ∧ s.mover ≠ some .engine)

/-- R152: LOAD moves the buffered byte into the shift register, sets `BUSY` and `UDRE`, changes
nothing else, and the block is then ready. -/
def Obligations.LoadStartsFrame : Prop :=
  ∀ s : State, s.loadEnabled = true →
    engineMove s = { s with
      shift := s.txdata
      status := { s.status with busy := true, udre := true } } ∧
    (engineMove s).ready = true

/-- R153: FRAME_DONE appends the frame with the configuration in force; with a byte waiting the next
frame starts at once, with none `BUSY` is cleared and `TXC` set. -/
def Obligations.FrameDoneSendsFrame : Prop :=
  ∀ s : State, s.frameDoneEnabled = true →
    (s.status.udre = false →
      engineMove s = { s with
        wire := s.wire ++ [.frame s.shift s.div s.ctrl.u2x s.frame]
        shift := s.txdata
        status := { s.status with udre := true } }) ∧
    (s.status.udre = true →
      engineMove s = { s with
        wire := s.wire ++ [.frame s.shift s.div s.ctrl.u2x s.frame]
        status := { s.status with busy := false, txc := true } })

/-- R154: with `PWR` or `TXEN` 0 the engine takes no step; only END clears them; and in a state of
the invariant a pending byte never sits frozen. -/
def Obligations.EngineStopsOnlyWhenOff : Prop :=
  (∀ s : State, s.ctrl.pwr = false ∨ s.ctrl.txen = false →
    engineMove s = s ∧ s.mover ≠ some .engine) ∧
  (∀ s t : State, step s = .next t → s.enabled = true → t.enabled = false →
    s.issuing = some .endCmd ∧ t.pending = false) ∧
  ∀ s : State, s.Inv → s.pending = true → s.engineEnabled = true

/-- R131, R83: no engine step clears `READY` or `TXC`, changes a control bit, or records a fault. -/
def Obligations.EngineKeepsReadyAndComplete : Prop :=
  ∀ s : State,
    (s.ready = true → (engineMove s).ready = true) ∧
    (s.status.txc = true → (engineMove s).status.txc = true) ∧
    (engineMove s).ctrl = s.ctrl ∧ (engineMove s).faultLog = s.faultLog ∧
    (engineMove s).resps = s.resps

/-! ### The whole machine -/

/-- R34: every write of a status or control flag, by command or engine step. -/
def Obligations.FlagWriteTable : Prop :=
  (∀ (s t : State) (b : Word32), exec (.config b) s = .next t →
    t.ctrl.pwr = true ∧ t.ctrl.txen = true ∧ t.ctrl.rxen = true ∧
    t.ctrl.u2x = (baudCalc s.params.arith s.params.clkHz.toNat b.toNat).2 ∧
    t.status.udre = (if s.pending then true else s.status.udre) ∧
    t.status.txc = s.status.txc ∧
    t.status.busy = (if s.pending then false else s.status.busy)) ∧
  (∀ s t : State, exec .endCmd s = .next t →
    t.ctrl.pwr = false ∧ t.ctrl.txen = false ∧ t.ctrl.rxen = false ∧
    t.ctrl.u2x = s.ctrl.u2x ∧
    t.status.udre = (if s.pending then true else s.status.udre) ∧
    t.status.txc = s.status.txc ∧
    t.status.busy = (if s.pending then false else s.status.busy)) ∧
  (∀ (s t : State) (d : Byte), s.ready = true →
    exec (.txbyte d) s = .next t ∨ exec (.txraw d) s = .next t →
    t.ctrl = s.ctrl ∧ t.status = { s.status with udre := false, txc := false }) ∧
  (∀ (s t : State) (d : Byte), s.ready = false → exec (.txraw d) s = .next t →
    t.ctrl = s.ctrl ∧ t.status = s.status) ∧
  (∀ s t : State,
    exec .pollrdy s = .next t ∨ exec .polltxc s = .next t ∨ exec .flush s = .next t →
    t.ctrl = s.ctrl ∧ t.status = s.status) ∧
  (∀ s : State, (load s).ctrl = s.ctrl ∧
    (load s).status = { s.status with udre := true, busy := true }) ∧
  (∀ s : State, s.status.udre = false → (frameDone s).ctrl = s.ctrl ∧
    (frameDone s).status = { s.status with udre := true }) ∧
  (∀ s : State, s.status.udre = true → (frameDone s).ctrl = s.ctrl ∧
    (frameDone s).status = { s.status with txc := true, busy := false })

/-- R171, R174: the fault records of every command word and of the engine: at most one, by decoding
first, under exactly the condition of the table. -/
def Obligations.FaultRecordsByCommand : Prop :=
  (∀ (w : CmdWord) (s : State), ∃ t, issueWord w s = .next t ∧
    t.faultLog = s.faultLog ++
      match decode w with
      | none => [.illegalCommand w]
      | some (.config _) => if s.pending then [.configWhilePending] else []
      | some .endCmd => if s.pending then [.endWhilePending] else []
      | some (.txraw d) => if s.ready then [] else [.txNotReady d]
      | some (.txbyte _) => []
      | some .pollrdy => []
      | some .polltxc => []
      | some .flush => []) ∧
  ∀ s : State, (engineMove s).faultLog = s.faultLog

/-- The invariant (R36, R24, R173, R155, U5) is kept by every step from every state it holds in. -/
def Obligations.InvariantKept : Prop :=
  ∀ s t : State, s.Inv → step s = .next t → t.Inv

/-- The invariant holds at reset (R35, R36). -/
def Obligations.InvariantAtReset : Prop := State.reset.Inv

/-- R36: I1 and I2 in every state any host program can reach from reset, in any interleaving, at any
clock. -/
def Obligations.PendingOnlyWhileEnabled : Prop :=
  ∀ (p : List HostLine) (q : List Agent) (params : Params) (k : Nat) (t : State),
    Host.Core.run core k { State.reset with params := params, prog := p, sched := q } = .next t →
      (t.status.udre = false ∨ t.status.busy = true → t.ctrl.pwr = true ∧ t.ctrl.txen = true) ∧
      (t.status.txc = true → t.status.udre = true ∧ t.status.busy = false)

/-- R60: the bytes on the wire followed by those in the pipeline are the accepted bytes in order. A
step appends the byte it accepts, CONFIG and END drop the byte still in `TXDATA` and no other, and
no other step changes the sequence. -/
def Obligations.WireKeepsAcceptanceOrder : Prop :=
  ∀ s t : State, step s = .next t →
    if s.mover = some .host then
      match s.issuing with
      | some (.txbyte d) => t.flow = s.flow ++ [d]
      | some (.txraw d) => t.flow = if s.ready then s.flow ++ [d] else s.flow
      | some (.config _) => s.flow = t.flow ++ if s.status.udre then [] else [s.txdata]
      | some .endCmd => s.flow = t.flow ++ if s.status.udre then [] else [s.txdata]
      | some .pollrdy => t.flow = s.flow
      | some .polltxc => t.flow = s.flow
      | some .flush => t.flow = s.flow
      | none => t.flow = s.flow
    else t.flow = s.flow

/-- R32, R33, R38: every step only appends to `WIRE`, `FAULTS` and the responses, and never changes
the parameters. -/
def Obligations.LogsOnlyGrow : Prop :=
  ∀ s t : State, step s = .next t →
    s.wire <+: t.wire ∧ s.faultLog <+: t.faultLog ∧ s.resps <+: t.resps ∧
    (∀ c ∈ s.faults, c ∈ t.faults) ∧ t.params = s.params ∧ t.prog = s.prog

/-- R25, R26: only CONFIG writes `DIV` and `U2X`; it writes the calculator's divisor modulo 4096 and
its flag; END keeps both; `DIV` is 0 at reset. -/
def Obligations.OnlyConfigWritesDivisor : Prop :=
  (∀ s t : State, step s = .next t → t.div ≠ s.div ∨ t.ctrl.u2x ≠ s.ctrl.u2x →
    ∃ b, s.issuing = some (.config b)) ∧
  (∀ (s t : State) (b : Word32), exec (.config b) s = .next t →
    (t.div.toNat : Int) = (baudCalc s.params.arith s.params.clkHz.toNat b.toNat).1 % 4096 ∧
    t.ctrl.u2x = (baudCalc s.params.arith s.params.clkHz.toNat b.toNat).2) ∧
  (∀ s t : State, exec .endCmd s = .next t → t.div = s.div ∧ t.ctrl.u2x = s.ctrl.u2x) ∧
  State.reset.div = 0x000#12

/-- R155: the divisor, the flag and the format do not change while a frame is in `SHIFT`: a step
after which the same frame is still being sent leaves them as they were. -/
def Obligations.ConfigurationFixedDuringFrame : Prop :=
  ∀ s t : State, step s = .next t → s.status.busy = true → t.status.busy = true →
    t.div = s.div ∧ t.ctrl.u2x = s.ctrl.u2x ∧ t.frame = s.frame

/-- R183: the two power states: what enters and leaves them, what holds while powered down, and
what powering down keeps. -/
def Obligations.PowerStates : Prop :=
  State.reset.ctrl.pwr = false ∧
  (∀ (s t : State) (b : Word32), exec (.config b) s = .next t → t.ctrl.pwr = true) ∧
  (∀ s t : State, exec .endCmd s = .next t → t.ctrl.pwr = false ∧ t.div = s.div ∧
    t.ctrl.u2x = s.ctrl.u2x ∧ t.frame = s.frame ∧ t.status.txc = s.status.txc) ∧
  (∀ s : State, s.ctrl.pwr = false →
    s.ready = false ∧ engineMove s = s ∧ s.mover ≠ some .engine) ∧
  ∀ s t : State, step s = .next t → s.ctrl.pwr = false → t.ctrl.pwr = true →
    ∃ b, s.issuing = some (.config b)

/-- R173: no command sets an interrupt enable, and in a state of the invariant the interrupt output
is deasserted, before and after every step. -/
def Obligations.InterruptsNeverAsserted : Prop :=
  (∀ (w : CmdWord) (s t : State), issueWord w s = .next t →
    (t.ctrl.txcie = true → s.ctrl.txcie = true) ∧ (t.ctrl.udrie = true → s.ctrl.udrie = true) ∧
    (t.ctrl.rxcie = true → s.ctrl.rxcie = true)) ∧
  (∀ s : State, s.Inv → s.interruptRequest = false) ∧
  ∀ s t : State, s.Inv → step s = .next t → t.interruptRequest = false

/-- R132, R61: a FLUSH issued with a byte pending completes within three steps whatever the
interleaving, and then every pending byte is on the wire, in order, in the configuration in
force. -/
def Obligations.FlushCompletesWithPending : Prop :=
  ∀ s : State, s.Inv → s.issuing = some .flush → s.pending = true →
    ∃ (k : Nat) (t : State), k ≤ 3 ∧ Host.Core.run core k s = .next t ∧
      t.resps = s.resps ++ [0#32] ∧ t.hostPc = s.hostPc + 1 ∧
      t.wire = s.wire ++ s.pipeline.map (fun d => .frame d s.div s.ctrl.u2x s.frame) ∧
      t.pending = false ∧ t.status.txc = true

/-- R156: in a weakly fair run whose host issues neither CONFIG nor END, every byte the block has
taken is eventually on the wire, in order. -/
def Obligations.FairRunsSendEveryByte : Prop :=
  ∀ run : Nat → State, WeaklyFair run → (run 0).Inv →
    (∀ n, (run n).issuing ≠ some .endCmd ∧ ∀ b, (run n).issuing ≠ some (.config b)) →
      ∃ m, (run 0).flow <+: (run m).wire.map eventByte

/-- R142: a TXBYTE on a configured block is accepted within three steps whatever the
interleaving. -/
def Obligations.TxbyteAcceptedWhenConfigured : Prop :=
  ∀ (s : State) (d : Byte), s.enabled = true → s.issuing = some (.txbyte d) →
    ∃ (k : Nat) (t : State), k ≤ 3 ∧ Host.Core.run core k s = .next t ∧
      t.resps = s.resps ++ [0#32] ∧ t.hostPc = s.hostPc + 1 ∧ t.txdata = d ∧
      t.status.udre = false ∧ t.faultLog = s.faultLog

/-- R131, R132, R142: TXBYTE on a block that is not configured, and FLUSH with `TXC = 0` and nothing
pending, hang: no number of steps changes the state, and the run is reported as hung (that a hang is
an endless run in one state is log entry 3). -/
def Obligations.HangsAreForever : Prop :=
  ∀ s : State,
    ((∃ d, s.issuing = some (.txbyte d)) ∧ s.enabled = false) ∨
    (s.issuing = some .flush ∧ s.status.txc = false ∧ s.pending = false) →
      s.runEnd = .hung ∧ ∀ k : Nat, Host.Core.run core k s = .next s

/-- R29, R30: `TXDATA` while `UDRE = 1` and `SHIFT` while `BUSY = 0` are never observable: two states
that differ only there go on with the same responses, wire, faults and flags. -/
def Obligations.DeadRegistersUnobservable : Prop :=
  ∀ s s' t : State, s.agreeOnLive s' → step s = .next t →
    ∃ t', step s' = .next t' ∧ t.agreeOnLive t' ∧ t'.resps = t.resps ∧ t'.wire = t.wire ∧
      t'.faultLog = t.faultLog ∧ t'.ready = t.ready

/-- R28: `READY`; what POLLRDY answers and TXBYTE waits for; 0 while not powered or not enabled, so
at reset and after END, until a CONFIG. -/
def Obligations.ReadyMeansFreeAndEnabled : Prop :=
  (∀ s : State, s.ready = (s.ctrl.pwr && s.ctrl.txen && s.status.udre)) ∧
  (∀ s t : State, exec .pollrdy s = .next t →
    t.resps.getLast? = some (if s.ready then 1#32 else 0#32)) ∧
  (∀ (s : State) (d : Byte), commandHeld (.txbyte d) s = !s.ready) ∧
  State.reset.ready = false ∧
  (∀ s t : State, exec .endCmd s = .next t → t.ready = false) ∧
  ∀ s t : State, step s = .next t → s.enabled = false → t.ready = true →
    ∃ b, s.issuing = some (.config b)

/-- R190: the reset state: the values the rule gives, with no engine step enabled and the interrupt
output deasserted; and whatever `TXDATA` and `SHIFT` hold at reset, no program run from there can
tell. -/
def Obligations.ResetState : Prop :=
  ctrlWord State.reset.ctrl = 0x00#8 ∧ State.reset.frame = 0x08#8 ∧ State.reset.div = 0x000#12 ∧
  State.reset.status = ⟨true, false, false⟩ ∧ State.reset.ready = false ∧
  State.reset.statusWord = 0x01#8 ∧ State.reset.wire = [] ∧ State.reset.faults = [] ∧
  State.reset.engineEnabled = false ∧ State.reset.interruptRequest = false ∧
  ∀ (x y : Byte) (s t : State) (k : Nat),
    s = { State.reset with params := s.params, prog := s.prog, sched := s.sched } →
    Host.Core.run core k s = .next t →
    ∃ t', Host.Core.run core k { s with txdata := x, shift := y } = .next t' ∧
      t'.resps = t.resps ∧ t'.wire = t.wire ∧ t'.faultLog = t.faultLog ∧ t'.runEnd = t.runEnd

/-- R23, R27: the numeric layout of `CTRL` and `STATUS`: which bit each field is, and the reserved
bits zero. -/
def Obligations.RegisterLayout : Prop :=
  (∀ c : Ctrl, (ctrlWord c).getLsbD 0 = c.pwr ∧ (ctrlWord c).getLsbD 1 = c.txen ∧
    (ctrlWord c).getLsbD 2 = c.rxen ∧ (ctrlWord c).getLsbD 3 = c.u2x ∧
    (ctrlWord c).getLsbD 4 = c.txcie ∧ (ctrlWord c).getLsbD 5 = c.udrie ∧
    (ctrlWord c).getLsbD 6 = c.rxcie ∧ (ctrlWord c).getLsbD 7 = false) ∧
  ∀ s : State, s.statusWord.getLsbD 0 = s.status.udre ∧ s.statusWord.getLsbD 1 = s.status.txc ∧
    s.statusWord.getLsbD 2 = s.status.busy ∧ s.statusWord.getLsbD 3 = s.ready ∧
    s.statusWord.extractLsb' 4 4 = 0#4

/-- R194: the hazards and what the rules give for them: HZ1, HZ2 and HZ3 record their fault, HZ4 and
HZ5 hang, and a command that meets none records no fault and is not hung. -/
def Obligations.HazardsAreTheBadCases : Prop :=
  ∀ (s t : State) (i : Instr), s.issuing = some i → exec i s = .next t →
    match hazard i s with
    | some .hz1 => ∃ d, i = .txraw d ∧ t.faultLog = s.faultLog ++ [.txNotReady d]
    | some .hz2 => t.faultLog = s.faultLog ++ [.endWhilePending]
    | some .hz3 => t.faultLog = s.faultLog ++ [.configWhilePending]
    | some .hz4 => s.hung = true
    | some .hz5 => s.hung = true
    | none => t.faultLog = s.faultLog ∧ (s.Inv → s.hung = false)

/-! ### The calculator -/

/-- R101: the clamp, and every later step uses the clamped rate. -/
def Obligations.RatesBelow300Clamp : Prop :=
  (∀ b : Nat, clampBaud b = if b < 300 then 300 else b) ∧ (∀ b : Nat, 300 ≤ clampBaud b) ∧
  ∀ (arith : CalcArith) (f b : Nat), b < 300 → baudCalc arith f b = baudCalc arith f 300

/-- R104: the calculator as the spec defines it; the divisor is not negative, and at most 4095 in
double-speed mode. -/
def Obligations.BaudCalcDefinition : Prop :=
  ∀ f b : Nat,
    (baudCalc .ideal f b =
      let bc := if b < 300 then 300 else b
      let d2 := Int.tdiv (((f / 4 / bc : Nat) : Int) - 1) 2
      if d2 > 4095 ∨ (bc = 57600 ∧ f = 16000000) then
        (Int.tdiv (((f / 8 / bc : Nat) : Int) - 1) 2, false)
      else (d2, true)) ∧
    0 ≤ (baudCalc .ideal f b).1 ∧
    ((baudCalc .ideal f b).2 = true → (baudCalc .ideal f b).1 ≤ 4095)

/-- R111: the closed form of the divisors, and when each is above 4095. -/
def Obligations.DivisorClosedForm : Prop :=
  ∀ q : Nat, (q ≤ 2 → halve .ideal q = 0) ∧
    (1 ≤ q → halve .ideal q = (((q - 1) / 2 : Nat) : Int)) ∧
    (halve .ideal q > 4095 ↔ 8193 ≤ q)

/-- R112 and R114: the source's testable properties of the calculator. The error-tolerance property
has `TOL` and the supported set open and is claimed for neither; what it says of each pair, and what
the spec's two large errors at 16 MHz (230400 and 4 000 000) ask of `TOL`. The effective rate in it
is general knowledge (R110, log entry 14). -/
def Obligations.SpecialRateProperties : Prop :=
  baudCalc .ideal 16000000 57600 = (16, false) ∧
  (∀ f : Nat, f ≠ 16000000 →
    ((baudCalc .ideal f 57600).2 = true ↔ f / 4 / 57600 ≤ 8192) ∧
    ((baudCalc .ideal f 57600).2 = true ↔ f < 1887667200)) ∧
  (∀ f b : Nat, b < 300 → baudCalc .ideal f b = baudCalc .ideal f 300) ∧
  ∀ (arith : CalcArith) (tol : ℚ) (S : BitVec 32 → Word32 → Prop),
    (rateProperty arith tol S ↔ ∀ f b, S f b →
      |effectiveRate f.toNat (programmed ⟨f, arith⟩ b).1 (programmed ⟨f, arith⟩ b).2 -
        (clampBaud b.toNat : ℚ)| ≤ tol * (clampBaud b.toNat : ℚ)) ∧
    (S 16000000#32 230400#32 → rateProperty arith tol S → 23 / 648 ≤ tol) ∧
    (S 16000000#32 4000000#32 → rateProperty arith tol S → 1 / 2 ≤ tol)

/-- R113: the calculator at the reference clock, in the four ranges of the clamped rate. -/
def Obligations.ReferenceClockRanges : Prop :=
  ∀ b : Nat,
    (300 ≤ b → b ≤ 488 → 8196 ≤ quotient4 16000000 b ∧ (baudCalc .ideal 16000000 b).2 = false) ∧
    (b = 57600 → baudCalc .ideal 16000000 b = (16, false)) ∧
    (489 ≤ b → b ≠ 57600 → (baudCalc .ideal 16000000 b).2 = true) ∧
    (1333334 ≤ b → quotient4 16000000 b ≤ 2 ∧ baudCalc .ideal 16000000 b = (0, true) ∧
      effectiveRate 16000000 0#12 true = 2000000) ∧
    (b = 488 → quotient4 16000000 b = 8196 ∧ halve .ideal (quotient4 16000000 b) = 4097) ∧
    (b = 489 → quotient4 16000000 b = 8179 ∧ halve .ideal (quotient4 16000000 b) = 4089)

/-- R107: the fallback divisor can exceed 4095 exactly at clocks of 19 663 200 Hz and more; at 16 MHz
it is at most 3332. -/
def Obligations.FallbackOverflowClocks : Prop :=
  (∀ f : Nat, (∃ bc, 300 ≤ bc ∧ 8193 ≤ quotient8 f bc) ↔ 19663200 ≤ f) ∧
  (∀ bc : Nat, 300 ≤ bc → halve .ideal (quotient8 16000000 bc) ≤ 3332) ∧
  baudCalc .ideal 20000000 300 = (4166, false) ∧ divisorField 4166 = 70#12

/-- R108: with `q4 < 3` the result is the divisor 0 in double-speed mode. -/
def Obligations.HighRatesGiveZero : Prop :=
  ∀ f b : Nat, quotient4 f (clampBaud b) < 3 → baudCalc .ideal f b = (0, true)

/-- R110: within one mode the calculator rounds the ideal divisor to the nearest integer, exact
halves up. -/
def Obligations.DivisorIsNearestWithinMode : Prop :=
  ∀ f bc : Nat, 0 < bc →
    (4 * bc ≤ f → halve .ideal (quotient4 f bc) = ⌊(f : ℚ) / (8 * bc) + 1 / 2⌋ - 1) ∧
    (8 * bc ≤ f → halve .ideal (quotient8 f bc) = ⌊(f : ℚ) / (16 * bc) + 1 / 2⌋ - 1)

/-- 93_implementation_defined.md, CALC_ARITH: the wrapping reading differs from the default only when
`q4` is 0, and there it programs the slowest setting. -/
def Obligations.WrappingReadingDiffers : Prop :=
  (∀ f b : Nat, f < 4294967296 → 0 < quotient4 f (clampBaud b) →
    baudCalc .wrap32 f b = baudCalc .ideal f b) ∧
  ∀ f b : Nat, quotient4 f (clampBaud b) = 0 →
    baudCalc .wrap32 f b = (2147483647, false) ∧
    divisorField (baudCalc .wrap32 f b).1 = 4095#12 ∧ baudCalc .ideal f b = (0, true)

/-! ### Host-side text -/

/-- R82 to R84: the lines each pseudo-instruction stands for, its label the number of its first line
and its characters in ASCII (log entries 18 and 22). A TXBYTE line is the word 0x03 in bits 39:32 and
the byte in bits 7:0 (R72). -/
def Obligations.PseudoExpansions : Prop :=
  let txbyte : Byte → HostLine := fun b => .issue (0x03#8 ++ 0x000000#24 ++ b)
  ∀ k : Nat,
    expand k (.begin none) = [.issue 0x0100002580#40] ∧
    (∀ b : Word32, expand k (.begin (some b)) = [.issue (0x01#8 ++ b)]) ∧
    expand k .waitRdy = [.issue 0x0500000000#40, .bz k] ∧
    (∀ d : Byte, expand k (.txbytePolling d) =
      [.issue 0x0500000000#40, .bz k, .issue (0x04#8 ++ 0x000000#24 ++ d)]) ∧
    expand k .flushPolling = [.issue 0x0600000000#40, .bz k] ∧
    expand k .println = [.issue 0x030000000D#40, .issue 0x030000000A#40] ∧
    (∀ bytes : List Byte, expand k (.txBlock bytes) = bytes.map txbyte) ∧
    (∀ text rest : List Byte, (∀ b ∈ text, b ≠ 0#8) →
      expand k (.txStr (some (text ++ 0#8 :: rest))) = text.map txbyte) ∧
    expand k (.txStr none) = [] ∧
    (∀ d : Byte,
      let bit : Nat → Byte := fun i => if d.getLsbD i then 0x31#8 else 0x30#8
      expand k (.printBin d) =
        [0x30#8, 0x62#8, bit 7, bit 6, bit 5, bit 4, 0x20#8, bit 3, bit 2, bit 1, bit 0].map
          txbyte) ∧
    ∀ n : Byte, expand k (.printDigit n) =
      [txbyte ([0x30#8, 0x31#8, 0x32#8, 0x33#8, 0x34#8, 0x35#8, 0x36#8, 0x37#8, 0x38#8, 0x39#8,
        0x61#8, 0x62#8, 0x63#8, 0x64#8, 0x65#8, 0x66#8].getD (n.toNat % 16) 0#8)]
end

