-- ==== Sys2Proof/Laws/Decode.lean ====
section
/-! SUPPORT. The fields of a command word and how they come apart (R71, R74): for every proof about
the decoder and the encoder. -/

namespace Sys2Proof

@[simp] theorem opField_cmdWord (op : BitVec 8) (arg : Word32) : opField (cmdWord op arg) = op := by
  apply BitVec.eq_of_getLsbD_eq
  intro i hi
  simp only [opField, cmdWord, BitVec.getLsbD_extractLsb', BitVec.getLsbD_append]
  simp [hi]

@[simp] theorem argField_cmdWord (op : BitVec 8) (arg : Word32) :
    argField (cmdWord op arg) = arg := by
  apply BitVec.eq_of_getLsbD_eq
  intro i hi
  simp only [argField, cmdWord, BitVec.getLsbD_extractLsb', BitVec.getLsbD_append]
  simp [hi]

/-- A word is its opcode and its argument (R71). -/
@[simp] theorem cmdWord_fields (w : CmdWord) : cmdWord (opField w) (argField w) = w := by
  apply BitVec.eq_of_getLsbD_eq
  intro i hi
  simp only [opField, argField, cmdWord, BitVec.getLsbD_extractLsb', BitVec.getLsbD_append]
  by_cases h : i < 32
  · simp [h]
  · have h8 : i - 32 < 8 := by omega
    have e : 32 + (i - 32) = i := by omega
    simp [h, h8, e]

@[simp] theorem byteOperand_setWidth (d : Byte) : byteOperand (d.setWidth 32) = d := by
  apply BitVec.eq_of_getLsbD_eq
  intro i hi
  simp only [byteOperand, BitVec.getLsbD_extractLsb', BitVec.getLsbD_setWidth]
  have : i < 32 := by omega
  simp [hi, this]

@[simp] theorem byteRest_setWidth (d : Byte) : byteRest (d.setWidth 32) = 0#24 := by
  apply BitVec.eq_of_getLsbD_eq
  intro i hi
  simp only [byteRest, BitVec.getLsbD_extractLsb', BitVec.getLsbD_setWidth]
  simp

/-- An argument whose upper bits are zero is its byte operand, zero-extended (R74). -/
theorem setWidth_byteOperand {arg : Word32} (h : byteRest arg = 0#24) :
    (byteOperand arg).setWidth 32 = arg := by
  apply BitVec.eq_of_getLsbD_eq
  intro i hi
  simp only [byteOperand, BitVec.getLsbD_extractLsb', BitVec.getLsbD_setWidth]
  by_cases h8 : i < 8
  · simp [hi, h8]
  · have hb := congrArg (fun v => v.getLsbD (i - 8)) h
    simp only [byteRest, BitVec.getLsbD_extractLsb'] at hb
    have e : 8 + (i - 8) = i := by omega
    have h24 : i - 8 < 24 := by omega
    simp [e, h24] at hb
    simp [h8, hb]

/-- The byte operand as bits 7:0 of the whole word (R71, R74). -/
theorem byteOperand_argField (w : CmdWord) :
    byteOperand (argField w) = w.extractLsb' 0 8 := by
  apply BitVec.eq_of_getLsbD_eq
  intro i hi
  simp only [byteOperand, argField, BitVec.getLsbD_extractLsb', hi, decide_true, Bool.true_and]
  simp [show i < 32 by omega]

/-- The rest of a byte command's argument as bits 31:8 of the whole word (R71, R74). -/
theorem byteRest_argField (w : CmdWord) : byteRest (argField w) = w.extractLsb' 8 24 := by
  apply BitVec.eq_of_getLsbD_eq
  intro i hi
  simp only [byteRest, argField, BitVec.getLsbD_extractLsb', hi, decide_true, Bool.true_and]
  simp [show 8 + i < 32 by omega]

/-- Masking a word masks its two fields. -/
theorem cmdWord_and (op op' : BitVec 8) (arg arg' : Word32) :
    cmdWord op arg &&& cmdWord op' arg' = cmdWord (op &&& op') (arg &&& arg') := by
  apply BitVec.eq_of_getLsbD_eq
  intro i hi
  simp only [cmdWord, BitVec.getLsbD_and, BitVec.getLsbD_append]
  by_cases h : i < 32 <;> simp [h]

/-- Two words are equal iff their fields are. -/
theorem cmdWord_inj {op op' : BitVec 8} {arg arg' : Word32} :
    cmdWord op arg = cmdWord op' arg' ↔ op = op' ∧ arg = arg' := by
  constructor
  · intro h
    have h1 := congrArg opField h
    have h2 := congrArg argField h
    simp only [opField_cmdWord, argField_cmdWord] at h1 h2
    exact ⟨h1, h2⟩
  · rintro ⟨rfl, rfl⟩; rfl

/-- What the rows of the table ask of a word's two fields (R72). -/
theorem selects_iff (m : String) (op opm : BitVec 8) (arg argm : Word32) (w : CmdWord) :
    OpcodeRow.selects ⟨m, cmdWord op arg, cmdWord opm argm⟩ w = true ↔
      opField w &&& opm = op ∧ argField w &&& argm = arg := by
  rw [OpcodeRow.selects, beq_iff_eq]
  conv_lhs => rw [← cmdWord_fields w]
  rw [cmdWord_and, cmdWord_inj]

/-- The bits of the byte commands' argument mask. -/
theorem byteMask_getLsbD (i : Nat) (h : i < 32) :
    (0xFFFFFF00#32).getLsbD i = decide (8 ≤ i) := by
  have : ∀ k : Fin 32, (0xFFFFFF00#32).getLsbD k.val = decide (8 ≤ k.val) := by decide
  exact this ⟨i, h⟩

/-- The upper 24 bits of an argument are zero iff the mask of the byte commands says so. -/
theorem byteRest_eq_zero_iff (arg : Word32) :
    byteRest arg = 0#24 ↔ arg &&& 0xFFFFFF00#32 = 0#32 := by
  constructor
  · intro h
    rw [← setWidth_byteOperand h]
    apply BitVec.eq_of_getLsbD_eq
    intro i hi
    rw [BitVec.getLsbD_and, byteMask_getLsbD i hi, BitVec.getLsbD_setWidth]
    by_cases h8 : 8 ≤ i
    · simp [BitVec.getLsbD_of_ge (byteOperand arg) i h8]
    · simp [h8]
  · intro h
    apply BitVec.eq_of_getLsbD_eq
    intro i hi
    have hb := congrArg (fun v => v.getLsbD (8 + i)) h
    simp only [BitVec.getLsbD_and, byteMask_getLsbD (8 + i) (by omega)] at hb
    simpa [byteRest, BitVec.getLsbD_extractLsb', hi] using hb

end Sys2Proof
end

