-- ==== Sys2Proof/Laws/State.lean ====
section
/-! SUPPORT. The field lemmas of the state's updates: one per field per update, each true by
definition, so that no later proof unfolds a record update; and those of the flag writes. -/

namespace Sys2Proof.Machine

section respond

@[simp] theorem respond_params (r : Word32) (s : State) : (respond r s).params = s.params := rfl
@[simp] theorem respond_ctrl (r : Word32) (s : State) : (respond r s).ctrl = s.ctrl := rfl
@[simp] theorem respond_frame (r : Word32) (s : State) : (respond r s).frame = s.frame := rfl
@[simp] theorem respond_div (r : Word32) (s : State) : (respond r s).div = s.div := rfl
@[simp] theorem respond_status (r : Word32) (s : State) : (respond r s).status = s.status := rfl
@[simp] theorem respond_txdata (r : Word32) (s : State) : (respond r s).txdata = s.txdata := rfl
@[simp] theorem respond_shift (r : Word32) (s : State) : (respond r s).shift = s.shift := rfl
@[simp] theorem respond_wire (r : Word32) (s : State) : (respond r s).wire = s.wire := rfl
@[simp] theorem respond_faultLog (r : Word32) (s : State) :
    (respond r s).faultLog = s.faultLog := rfl
@[simp] theorem respond_resps (r : Word32) (s : State) : (respond r s).resps = s.resps ++ [r] := rfl
@[simp] theorem respond_prog (r : Word32) (s : State) : (respond r s).prog = s.prog := rfl
@[simp] theorem respond_hostPc (r : Word32) (s : State) : (respond r s).hostPc = s.hostPc + 1 := rfl
@[simp] theorem respond_sched (r : Word32) (s : State) : (respond r s).sched = s.sched := rfl
@[simp] theorem respond_tick (r : Word32) (s : State) : (respond r s).tick = s.tick := rfl

end respond

section raise

@[simp] theorem raise_params (r : FaultRecord) (s : State) : (raise r s).params = s.params := rfl
@[simp] theorem raise_ctrl (r : FaultRecord) (s : State) : (raise r s).ctrl = s.ctrl := rfl
@[simp] theorem raise_frame (r : FaultRecord) (s : State) : (raise r s).frame = s.frame := rfl
@[simp] theorem raise_div (r : FaultRecord) (s : State) : (raise r s).div = s.div := rfl
@[simp] theorem raise_status (r : FaultRecord) (s : State) : (raise r s).status = s.status := rfl
@[simp] theorem raise_txdata (r : FaultRecord) (s : State) : (raise r s).txdata = s.txdata := rfl
@[simp] theorem raise_shift (r : FaultRecord) (s : State) : (raise r s).shift = s.shift := rfl
@[simp] theorem raise_wire (r : FaultRecord) (s : State) : (raise r s).wire = s.wire := rfl
@[simp] theorem raise_faultLog (r : FaultRecord) (s : State) :
    (raise r s).faultLog = s.faultLog ++ [r] := rfl
@[simp] theorem raise_resps (r : FaultRecord) (s : State) : (raise r s).resps = s.resps := rfl
@[simp] theorem raise_prog (r : FaultRecord) (s : State) : (raise r s).prog = s.prog := rfl
@[simp] theorem raise_hostPc (r : FaultRecord) (s : State) : (raise r s).hostPc = s.hostPc := rfl
@[simp] theorem raise_sched (r : FaultRecord) (s : State) : (raise r s).sched = s.sched := rfl
@[simp] theorem raise_tick (r : FaultRecord) (s : State) : (raise r s).tick = s.tick := rfl

end raise

section emit

@[simp] theorem emit_params (e : WireEvent) (s : State) : (emit e s).params = s.params := rfl
@[simp] theorem emit_ctrl (e : WireEvent) (s : State) : (emit e s).ctrl = s.ctrl := rfl
@[simp] theorem emit_frame (e : WireEvent) (s : State) : (emit e s).frame = s.frame := rfl
@[simp] theorem emit_div (e : WireEvent) (s : State) : (emit e s).div = s.div := rfl
@[simp] theorem emit_status (e : WireEvent) (s : State) : (emit e s).status = s.status := rfl
@[simp] theorem emit_txdata (e : WireEvent) (s : State) : (emit e s).txdata = s.txdata := rfl
@[simp] theorem emit_shift (e : WireEvent) (s : State) : (emit e s).shift = s.shift := rfl
@[simp] theorem emit_wire (e : WireEvent) (s : State) : (emit e s).wire = s.wire ++ [e] := rfl
@[simp] theorem emit_faultLog (e : WireEvent) (s : State) : (emit e s).faultLog = s.faultLog := rfl
@[simp] theorem emit_resps (e : WireEvent) (s : State) : (emit e s).resps = s.resps := rfl
@[simp] theorem emit_prog (e : WireEvent) (s : State) : (emit e s).prog = s.prog := rfl
@[simp] theorem emit_hostPc (e : WireEvent) (s : State) : (emit e s).hostPc = s.hostPc := rfl
@[simp] theorem emit_sched (e : WireEvent) (s : State) : (emit e s).sched = s.sched := rfl
@[simp] theorem emit_tick (e : WireEvent) (s : State) : (emit e s).tick = s.tick := rfl

end emit

section accept

@[simp] theorem accept_params (d : Byte) (s : State) : (accept d s).params = s.params := rfl
@[simp] theorem accept_ctrl (d : Byte) (s : State) : (accept d s).ctrl = s.ctrl := rfl
@[simp] theorem accept_frame (d : Byte) (s : State) : (accept d s).frame = s.frame := rfl
@[simp] theorem accept_div (d : Byte) (s : State) : (accept d s).div = s.div := rfl
@[simp] theorem accept_status (d : Byte) (s : State) :
    (accept d s).status = acceptStatus s.status := rfl
@[simp] theorem accept_txdata (d : Byte) (s : State) : (accept d s).txdata = d := rfl
@[simp] theorem accept_shift (d : Byte) (s : State) : (accept d s).shift = s.shift := rfl
@[simp] theorem accept_wire (d : Byte) (s : State) : (accept d s).wire = s.wire := rfl
@[simp] theorem accept_faultLog (d : Byte) (s : State) : (accept d s).faultLog = s.faultLog := rfl
@[simp] theorem accept_resps (d : Byte) (s : State) : (accept d s).resps = s.resps := rfl
@[simp] theorem accept_prog (d : Byte) (s : State) : (accept d s).prog = s.prog := rfl
@[simp] theorem accept_hostPc (d : Byte) (s : State) : (accept d s).hostPc = s.hostPc := rfl
@[simp] theorem accept_sched (d : Byte) (s : State) : (accept d s).sched = s.sched := rfl
@[simp] theorem accept_tick (d : Byte) (s : State) : (accept d s).tick = s.tick := rfl

end accept

section spend

@[simp] theorem State.spend_params (s : State) : s.spend.params = s.params := rfl
@[simp] theorem State.spend_ctrl (s : State) : s.spend.ctrl = s.ctrl := rfl
@[simp] theorem State.spend_frame (s : State) : s.spend.frame = s.frame := rfl
@[simp] theorem State.spend_div (s : State) : s.spend.div = s.div := rfl
@[simp] theorem State.spend_status (s : State) : s.spend.status = s.status := rfl
@[simp] theorem State.spend_txdata (s : State) : s.spend.txdata = s.txdata := rfl
@[simp] theorem State.spend_shift (s : State) : s.spend.shift = s.shift := rfl
@[simp] theorem State.spend_wire (s : State) : s.spend.wire = s.wire := rfl
@[simp] theorem State.spend_faultLog (s : State) : s.spend.faultLog = s.faultLog := rfl
@[simp] theorem State.spend_resps (s : State) : s.spend.resps = s.resps := rfl
@[simp] theorem State.spend_prog (s : State) : s.spend.prog = s.prog := rfl
@[simp] theorem State.spend_hostPc (s : State) : s.spend.hostPc = s.hostPc := rfl
@[simp] theorem State.spend_sched (s : State) : s.spend.sched = s.sched.tail := rfl
@[simp] theorem State.spend_tick (s : State) : s.spend.tick = s.tick + 1 := rfl

end spend

section writeConfig

@[simp] theorem writeConfig_params (p : Divisor × Bool) (s : State) :
    (writeConfig p s).params = s.params := rfl
@[simp] theorem writeConfig_ctrl (p : Divisor × Bool) (s : State) :
    (writeConfig p s).ctrl = configCtrl p.2 := rfl
@[simp] theorem writeConfig_frame (p : Divisor × Bool) (s : State) :
    (writeConfig p s).frame = 0x08#8 := rfl
@[simp] theorem writeConfig_div (p : Divisor × Bool) (s : State) :
    (writeConfig p s).div = p.1 := rfl
@[simp] theorem writeConfig_status (p : Divisor × Bool) (s : State) :
    (writeConfig p s).status = s.status := rfl
@[simp] theorem writeConfig_txdata (p : Divisor × Bool) (s : State) :
    (writeConfig p s).txdata = s.txdata := rfl
@[simp] theorem writeConfig_shift (p : Divisor × Bool) (s : State) :
    (writeConfig p s).shift = s.shift := rfl
@[simp] theorem writeConfig_wire (p : Divisor × Bool) (s : State) :
    (writeConfig p s).wire = s.wire := rfl
@[simp] theorem writeConfig_faultLog (p : Divisor × Bool) (s : State) :
    (writeConfig p s).faultLog = s.faultLog := rfl
@[simp] theorem writeConfig_resps (p : Divisor × Bool) (s : State) :
    (writeConfig p s).resps = s.resps := rfl
@[simp] theorem writeConfig_prog (p : Divisor × Bool) (s : State) :
    (writeConfig p s).prog = s.prog := rfl
@[simp] theorem writeConfig_hostPc (p : Divisor × Bool) (s : State) :
    (writeConfig p s).hostPc = s.hostPc := rfl
@[simp] theorem writeConfig_sched (p : Divisor × Bool) (s : State) :
    (writeConfig p s).sched = s.sched := rfl
@[simp] theorem writeConfig_tick (p : Divisor × Bool) (s : State) :
    (writeConfig p s).tick = s.tick := rfl

end writeConfig

section writeEnd

@[simp] theorem writeEnd_params (s : State) : (writeEnd s).params = s.params := rfl
@[simp] theorem writeEnd_ctrl (s : State) : (writeEnd s).ctrl = endCtrl s.ctrl := rfl
@[simp] theorem writeEnd_frame (s : State) : (writeEnd s).frame = s.frame := rfl
@[simp] theorem writeEnd_div (s : State) : (writeEnd s).div = s.div := rfl
@[simp] theorem writeEnd_status (s : State) : (writeEnd s).status = s.status := rfl
@[simp] theorem writeEnd_txdata (s : State) : (writeEnd s).txdata = s.txdata := rfl
@[simp] theorem writeEnd_shift (s : State) : (writeEnd s).shift = s.shift := rfl
@[simp] theorem writeEnd_wire (s : State) : (writeEnd s).wire = s.wire := rfl
@[simp] theorem writeEnd_faultLog (s : State) : (writeEnd s).faultLog = s.faultLog := rfl
@[simp] theorem writeEnd_resps (s : State) : (writeEnd s).resps = s.resps := rfl
@[simp] theorem writeEnd_prog (s : State) : (writeEnd s).prog = s.prog := rfl
@[simp] theorem writeEnd_hostPc (s : State) : (writeEnd s).hostPc = s.hostPc := rfl
@[simp] theorem writeEnd_sched (s : State) : (writeEnd s).sched = s.sched := rfl
@[simp] theorem writeEnd_tick (s : State) : (writeEnd s).tick = s.tick := rfl

end writeEnd

section load

@[simp] theorem load_params (s : State) : (load s).params = s.params := rfl
@[simp] theorem load_ctrl (s : State) : (load s).ctrl = s.ctrl := rfl
@[simp] theorem load_frame (s : State) : (load s).frame = s.frame := rfl
@[simp] theorem load_div (s : State) : (load s).div = s.div := rfl
@[simp] theorem load_status (s : State) : (load s).status = loadStatus s.status := rfl
@[simp] theorem load_txdata (s : State) : (load s).txdata = s.txdata := rfl
@[simp] theorem load_shift (s : State) : (load s).shift = s.txdata := rfl
@[simp] theorem load_wire (s : State) : (load s).wire = s.wire := rfl
@[simp] theorem load_faultLog (s : State) : (load s).faultLog = s.faultLog := rfl
@[simp] theorem load_resps (s : State) : (load s).resps = s.resps := rfl
@[simp] theorem load_prog (s : State) : (load s).prog = s.prog := rfl
@[simp] theorem load_hostPc (s : State) : (load s).hostPc = s.hostPc := rfl
@[simp] theorem load_sched (s : State) : (load s).sched = s.sched := rfl
@[simp] theorem load_tick (s : State) : (load s).tick = s.tick := rfl

end load

section withProgram

@[simp] theorem State.withProgram_params (s : State) (p : List HostLine) :
    (s.withProgram p).params = s.params := rfl
@[simp] theorem State.withProgram_ctrl (s : State) (p : List HostLine) :
    (s.withProgram p).ctrl = s.ctrl := rfl
@[simp] theorem State.withProgram_frame (s : State) (p : List HostLine) :
    (s.withProgram p).frame = s.frame := rfl
@[simp] theorem State.withProgram_div (s : State) (p : List HostLine) :
    (s.withProgram p).div = s.div := rfl
@[simp] theorem State.withProgram_status (s : State) (p : List HostLine) :
    (s.withProgram p).status = s.status := rfl
@[simp] theorem State.withProgram_txdata (s : State) (p : List HostLine) :
    (s.withProgram p).txdata = s.txdata := rfl
@[simp] theorem State.withProgram_shift (s : State) (p : List HostLine) :
    (s.withProgram p).shift = s.shift := rfl
@[simp] theorem State.withProgram_wire (s : State) (p : List HostLine) :
    (s.withProgram p).wire = s.wire := rfl
@[simp] theorem State.withProgram_faultLog (s : State) (p : List HostLine) :
    (s.withProgram p).faultLog = s.faultLog := rfl
@[simp] theorem State.withProgram_resps (s : State) (p : List HostLine) :
    (s.withProgram p).resps = s.resps := rfl
@[simp] theorem State.withProgram_prog (s : State) (p : List HostLine) :
    (s.withProgram p).prog = p := rfl
@[simp] theorem State.withProgram_hostPc (s : State) (p : List HostLine) :
    (s.withProgram p).hostPc = 0 := rfl
@[simp] theorem State.withProgram_sched (s : State) (p : List HostLine) :
    (s.withProgram p).sched = .host :: s.sched := rfl
@[simp] theorem State.withProgram_tick (s : State) (p : List HostLine) :
    (s.withProgram p).tick = s.tick := rfl

end withProgram

section flags

@[simp] theorem abortStatus_udre (f : Status) : (abortStatus f).udre = true := rfl
@[simp] theorem abortStatus_txc (f : Status) : (abortStatus f).txc = f.txc := rfl
@[simp] theorem abortStatus_busy (f : Status) : (abortStatus f).busy = false := rfl
@[simp] theorem acceptStatus_udre (f : Status) : (acceptStatus f).udre = false := rfl
@[simp] theorem acceptStatus_txc (f : Status) : (acceptStatus f).txc = false := rfl
@[simp] theorem acceptStatus_busy (f : Status) : (acceptStatus f).busy = f.busy := rfl
@[simp] theorem loadStatus_udre (f : Status) : (loadStatus f).udre = true := rfl
@[simp] theorem loadStatus_txc (f : Status) : (loadStatus f).txc = f.txc := rfl
@[simp] theorem loadStatus_busy (f : Status) : (loadStatus f).busy = true := rfl
@[simp] theorem reloadStatus_udre (f : Status) : (reloadStatus f).udre = true := rfl
@[simp] theorem reloadStatus_txc (f : Status) : (reloadStatus f).txc = f.txc := rfl
@[simp] theorem reloadStatus_busy (f : Status) : (reloadStatus f).busy = f.busy := rfl
@[simp] theorem drainStatus_udre (f : Status) : (drainStatus f).udre = f.udre := rfl
@[simp] theorem drainStatus_txc (f : Status) : (drainStatus f).txc = true := rfl
@[simp] theorem drainStatus_busy (f : Status) : (drainStatus f).busy = false := rfl
@[simp] theorem configCtrl_pwr (u : Bool) : (configCtrl u).pwr = true := rfl
@[simp] theorem configCtrl_txen (u : Bool) : (configCtrl u).txen = true := rfl
@[simp] theorem configCtrl_rxen (u : Bool) : (configCtrl u).rxen = true := rfl
@[simp] theorem configCtrl_u2x (u : Bool) : (configCtrl u).u2x = u := rfl
@[simp] theorem configCtrl_txcie (u : Bool) : (configCtrl u).txcie = false := rfl
@[simp] theorem configCtrl_udrie (u : Bool) : (configCtrl u).udrie = false := rfl
@[simp] theorem configCtrl_rxcie (u : Bool) : (configCtrl u).rxcie = false := rfl
@[simp] theorem endCtrl_pwr (c : Ctrl) : (endCtrl c).pwr = false := rfl
@[simp] theorem endCtrl_txen (c : Ctrl) : (endCtrl c).txen = false := rfl
@[simp] theorem endCtrl_rxen (c : Ctrl) : (endCtrl c).rxen = false := rfl
@[simp] theorem endCtrl_u2x (c : Ctrl) : (endCtrl c).u2x = c.u2x := rfl
@[simp] theorem endCtrl_txcie (c : Ctrl) : (endCtrl c).txcie = c.txcie := rfl
@[simp] theorem endCtrl_udrie (c : Ctrl) : (endCtrl c).udrie = c.udrie := rfl
@[simp] theorem endCtrl_rxcie (c : Ctrl) : (endCtrl c).rxcie = c.rxcie := rfl

end flags

section derived

/-- `READY` depends on three flags only (R28). -/
theorem ready_iff (s : State) :
    s.ready = true ↔ s.ctrl.pwr = true ∧ s.ctrl.txen = true ∧ s.status.udre = true := by
  simp [State.ready, and_assoc]

theorem enabled_iff (s : State) :
    s.enabled = true ↔ s.ctrl.pwr = true ∧ s.ctrl.txen = true := by
  simp [State.enabled]

theorem pending_iff (s : State) :
    s.pending = true ↔ s.status.busy = true ∨ s.status.udre = false := by
  simp [State.pending]

theorem not_pending_iff (s : State) :
    s.pending = false ↔ s.status.busy = false ∧ s.status.udre = true := by
  simp [State.pending]

/-- A ready block is enabled and its buffer is free. -/
theorem ready_eq (s : State) : s.ready = (s.enabled && s.status.udre) := rfl

/-- Nothing pending is an empty pipeline. -/
theorem pipeline_eq_nil_iff (s : State) : s.pipeline = [] ↔ s.pending = false := by
  cases hb : s.status.busy <;> cases hu : s.status.udre <;>
    simp [State.pipeline, State.pending, hb, hu]

end derived

end Sys2Proof.Machine
end

