-- ==== Sys2Proof/Laws/Ops.lean ====
section
/-! SUPPORT. One lemma per shared operation that says everything it can do, for the provers to cite
instead of unfolding it: `abortPending`, `holdWhile`, the calculator, the engine's move, the choice
of the mover, the host's move and the step. -/

namespace Sys2Proof.Machine

/-! ### abort (R122) -/

/-- With nothing pending an abort has no effect. -/
theorem abortPending_idle (code : FaultRecord) (s : State) (h : s.pending = false) :
    abortPending code s = s := by
  simp [abortPending, h]

/-- With a byte pending, what an abort writes. -/
theorem abortPending_pending (code : FaultRecord) (s : State) (h : s.pending = true) :
    abortPending code s =
      { s with
        status := abortStatus s.status
        wire := s.wire ++ (if s.status.busy then [.aborted s.shift] else [])
        faultLog := s.faultLog ++ [code] } := by
  cases hb : s.status.busy <;> simp [abortPending, h, hb, emit, raise]

/-- The fields of an abort's result, whether or not a byte was pending. -/
theorem abortPending_eq (code : FaultRecord) (s : State) :
    abortPending code s =
      { s with
        status := ⟨true, s.status.txc, false⟩
        wire := s.wire ++ (if s.status.busy then [.aborted s.shift] else [])
        faultLog := s.faultLog ++ (if s.pending then [code] else []) } := by
  cases hp : s.pending with
  | true => rw [abortPending_pending code s hp]; simp [abortStatus]
  | false =>
    have h := (not_pending_iff s).1 hp
    obtain ⟨pa, ct, fr, dv, ⟨u, t, b⟩, td, sh, wi, fl, re, pr, pc, sc, ti⟩ := s
    simp only at h
    obtain ⟨rfl, rfl⟩ := h
    simp [abortPending_idle _ _ hp]

@[simp] theorem abortPending_params (code : FaultRecord) (s : State) :
    (abortPending code s).params = s.params := by rw [abortPending_eq]
@[simp] theorem abortPending_ctrl (code : FaultRecord) (s : State) :
    (abortPending code s).ctrl = s.ctrl := by rw [abortPending_eq]
@[simp] theorem abortPending_frame (code : FaultRecord) (s : State) :
    (abortPending code s).frame = s.frame := by rw [abortPending_eq]
@[simp] theorem abortPending_div (code : FaultRecord) (s : State) :
    (abortPending code s).div = s.div := by rw [abortPending_eq]
@[simp] theorem abortPending_txdata (code : FaultRecord) (s : State) :
    (abortPending code s).txdata = s.txdata := by rw [abortPending_eq]
@[simp] theorem abortPending_shift (code : FaultRecord) (s : State) :
    (abortPending code s).shift = s.shift := by rw [abortPending_eq]
@[simp] theorem abortPending_status (code : FaultRecord) (s : State) :
    (abortPending code s).status = ⟨true, s.status.txc, false⟩ := by rw [abortPending_eq]
@[simp] theorem abortPending_wire (code : FaultRecord) (s : State) :
    (abortPending code s).wire =
      s.wire ++ (if s.status.busy then [.aborted s.shift] else []) := by rw [abortPending_eq]
@[simp] theorem abortPending_faultLog (code : FaultRecord) (s : State) :
    (abortPending code s).faultLog =
      s.faultLog ++ (if s.pending then [code] else []) := by rw [abortPending_eq]
@[simp] theorem abortPending_resps (code : FaultRecord) (s : State) :
    (abortPending code s).resps = s.resps := by rw [abortPending_eq]
@[simp] theorem abortPending_prog (code : FaultRecord) (s : State) :
    (abortPending code s).prog = s.prog := by rw [abortPending_eq]
@[simp] theorem abortPending_hostPc (code : FaultRecord) (s : State) :
    (abortPending code s).hostPc = s.hostPc := by rw [abortPending_eq]
@[simp] theorem abortPending_sched (code : FaultRecord) (s : State) :
    (abortPending code s).sched = s.sched := by rw [abortPending_eq]
@[simp] theorem abortPending_tick (code : FaultRecord) (s : State) :
    (abortPending code s).tick = s.tick := by rw [abortPending_eq]

/-! ### hold (R131) -/

/-- A held command changes nothing. -/
theorem holdWhile_held {c : Bool} (k : State → State) (s : State) (h : c = true) :
    holdWhile c k s = .next s := by
  simp [holdWhile, h]

/-- Once the condition is lifted the command takes its effect. -/
theorem holdWhile_lifted {c : Bool} (k : State → State) (s : State) (h : c = false) :
    holdWhile c k s = .next (k s) := by
  simp [holdWhile, h]

/-! ### the calculator (R101 to R111) -/

/-- The clamped rate is never below 300 (R101). -/
theorem clampBaud_ge (b : Nat) : 300 ≤ clampBaud b := by
  unfold clampBaud
  split <;> omega

/-- A rate of 300 or more is not clamped (R101). -/
theorem clampBaud_of_ge {b : Nat} (h : 300 ≤ b) : clampBaud b = b := by
  exact if_neg (by omega)

/-- A rate below 300 is clamped up to 300 (R101). -/
theorem clampBaud_of_lt {b : Nat} (h : b < 300) : clampBaud b = 300 := by
  exact if_pos h

/-- Truncation toward zero in natural numbers: for a quotient of 0 the result is 0 (R108, R111). -/
theorem halve_ideal (q : Nat) : halve .ideal q = (((q - 1) / 2 : Nat) : Int) := by
  rcases q with _ | q
  · rfl
  · simp only [halve, tdiv, Nat.add_sub_cancel, Nat.cast_add, Nat.cast_one, add_sub_cancel_right]
    rw [Int.tdiv_eq_ediv_of_nonneg (by omega)]
    omega

/-- The wrapping reading at a quotient of 0 (93_implementation_defined.md). -/
theorem halve_wrap32_zero : halve .wrap32 0 = 2147483647 := by decide

/-- The two readings agree for a quotient of 1 to 2^32. -/
theorem halve_wrap32_pos {q : Nat} (h : 0 < q) (h' : q ≤ 2 ^ 32) :
    halve .wrap32 q = halve .ideal q := by
  rw [halve_ideal]
  simp only [halve]
  omega

/-! ### the engine (R151 to R154) -/

/-- Everything the engine's move can do: LOAD, FRAME_DONE with and without a byte waiting, or
nothing. -/
theorem engineMove_cases (s : State) :
    (s.loadEnabled = true ∧ engineMove s = load s) ∨
    (s.frameDoneEnabled = true ∧ s.status.udre = false ∧
      engineMove s = { s with
        wire := s.wire ++ [s.frameOf s.shift]
        shift := s.txdata
        status := reloadStatus s.status }) ∨
    (s.frameDoneEnabled = true ∧ s.status.udre = true ∧
      engineMove s = { s with
        wire := s.wire ++ [s.frameOf s.shift]
        status := drainStatus s.status }) ∨
    (s.engineEnabled = false ∧ engineMove s = s) := by
  cases hl : s.loadEnabled with
  | true => exact .inl ⟨rfl, by simp [engineMove, hl]⟩
  | false =>
    cases hf : s.frameDoneEnabled with
    | false =>
      exact .inr (.inr (.inr ⟨by simp [State.engineEnabled, hl, hf], by simp [engineMove, hl, hf]⟩))
    | true =>
      cases hu : s.status.udre with
      | false =>
        exact .inr (.inl ⟨rfl, rfl,
          by simp [engineMove, hl, hf, frameDone, hu, emit, State.frameOf]⟩)
      | true =>
        exact .inr (.inr (.inl ⟨rfl, rfl,
          by simp [engineMove, hl, hf, frameDone, hu, emit, State.frameOf]⟩))

/-- LOAD's condition in flags (R151). -/
theorem loadEnabled_iff (s : State) :
    s.loadEnabled = true ↔
      s.enabled = true ∧ s.status.udre = false ∧ s.status.busy = false := by
  simp [State.loadEnabled, and_assoc]

/-- FRAME_DONE's condition in flags (R151). -/
theorem frameDoneEnabled_iff (s : State) :
    s.frameDoneEnabled = true ↔ s.enabled = true ∧ s.status.busy = true := by
  simp [State.frameDoneEnabled]

/-- The engine can move exactly when the block is enabled and a byte is pending. -/
theorem engineEnabled_eq (s : State) : s.engineEnabled = (s.enabled && s.pending) := by
  simp only [State.engineEnabled, State.loadEnabled, State.frameDoneEnabled, State.pending]
  cases s.enabled <;> cases s.status.busy <;> cases s.status.udre <;> rfl

@[simp] theorem engineMove_params (s : State) : (engineMove s).params = s.params := by
  rcases engineMove_cases s with ⟨_, h⟩ | ⟨_, _, h⟩ | ⟨_, _, h⟩ | ⟨_, h⟩ <;> simp [h]
@[simp] theorem engineMove_ctrl (s : State) : (engineMove s).ctrl = s.ctrl := by
  rcases engineMove_cases s with ⟨_, h⟩ | ⟨_, _, h⟩ | ⟨_, _, h⟩ | ⟨_, h⟩ <;> simp [h]
@[simp] theorem engineMove_frame (s : State) : (engineMove s).frame = s.frame := by
  rcases engineMove_cases s with ⟨_, h⟩ | ⟨_, _, h⟩ | ⟨_, _, h⟩ | ⟨_, h⟩ <;> simp [h]
@[simp] theorem engineMove_div (s : State) : (engineMove s).div = s.div := by
  rcases engineMove_cases s with ⟨_, h⟩ | ⟨_, _, h⟩ | ⟨_, _, h⟩ | ⟨_, h⟩ <;> simp [h]
@[simp] theorem engineMove_txdata (s : State) : (engineMove s).txdata = s.txdata := by
  rcases engineMove_cases s with ⟨_, h⟩ | ⟨_, _, h⟩ | ⟨_, _, h⟩ | ⟨_, h⟩ <;> simp [h]
@[simp] theorem engineMove_faultLog (s : State) : (engineMove s).faultLog = s.faultLog := by
  rcases engineMove_cases s with ⟨_, h⟩ | ⟨_, _, h⟩ | ⟨_, _, h⟩ | ⟨_, h⟩ <;> simp [h]
@[simp] theorem engineMove_resps (s : State) : (engineMove s).resps = s.resps := by
  rcases engineMove_cases s with ⟨_, h⟩ | ⟨_, _, h⟩ | ⟨_, _, h⟩ | ⟨_, h⟩ <;> simp [h]
@[simp] theorem engineMove_prog (s : State) : (engineMove s).prog = s.prog := by
  rcases engineMove_cases s with ⟨_, h⟩ | ⟨_, _, h⟩ | ⟨_, _, h⟩ | ⟨_, h⟩ <;> simp [h]
@[simp] theorem engineMove_hostPc (s : State) : (engineMove s).hostPc = s.hostPc := by
  rcases engineMove_cases s with ⟨_, h⟩ | ⟨_, _, h⟩ | ⟨_, _, h⟩ | ⟨_, h⟩ <;> simp [h]
@[simp] theorem engineMove_sched (s : State) : (engineMove s).sched = s.sched := by
  rcases engineMove_cases s with ⟨_, h⟩ | ⟨_, _, h⟩ | ⟨_, _, h⟩ | ⟨_, h⟩ <;> simp [h]
@[simp] theorem engineMove_tick (s : State) : (engineMove s).tick = s.tick := by
  rcases engineMove_cases s with ⟨_, h⟩ | ⟨_, _, h⟩ | ⟨_, _, h⟩ | ⟨_, h⟩ <;> simp [h]

/-! ### what spending a move leaves unchanged -/

@[simp] theorem spend_ready (s : State) : s.spend.ready = s.ready := rfl
@[simp] theorem spend_enabled (s : State) : s.spend.enabled = s.enabled := rfl
@[simp] theorem spend_pending (s : State) : s.spend.pending = s.pending := rfl
@[simp] theorem spend_pipeline (s : State) : s.spend.pipeline = s.pipeline := rfl
@[simp] theorem spend_flow (s : State) : s.spend.flow = s.flow := rfl
@[simp] theorem spend_currentLine (s : State) : s.spend.currentLine = s.currentLine := rfl
@[simp] theorem spend_engineEnabled (s : State) : s.spend.engineEnabled = s.engineEnabled := rfl
@[simp] theorem spend_hostEnabled (s : State) : s.spend.hostEnabled = s.hostEnabled := rfl
@[simp] theorem spend_lastResp (s : State) : s.spend.lastResp = s.lastResp := rfl

/-! ### the mover, the host's move and the step -/

/-- Who moves, in terms of who is enabled. -/
theorem mover_cases (s : State) :
    (s.mover = some .host ∧ s.hostEnabled = true) ∨
    (s.mover = some .engine ∧ s.engineEnabled = true) ∨
    (s.mover = none ∧ s.hostEnabled = false ∧ s.engineEnabled = false) := by
  unfold State.mover
  cases hh : s.hostEnabled <;> cases he : s.engineEnabled <;> cases hf : s.favoured <;> simp

/-- The host's move is a command, a branch, or nothing. -/
theorem hostMove_cases (s : State) :
    (∃ w, s.currentLine = some (.issue w) ∧ hostMove s = issueWord w s) ∨
    (∃ n, ((∃ k, s.currentLine = some (.bz k)) ∨ ∃ k, s.currentLine = some (.b k)) ∧
      hostMove s = .next { s with hostPc := n }) ∨
    (s.halted = true ∧ hostMove s = .next s) := by
  unfold hostMove State.halted
  split
  · exact .inl ⟨_, by assumption, rfl⟩
  · exact .inr (.inl ⟨_, .inl ⟨_, by assumption⟩, rfl⟩)
  · exact .inr (.inl ⟨_, .inr ⟨_, by assumption⟩, rfl⟩)
  · exact .inr (.inr ⟨by simp [*], rfl⟩)
  · exact .inr (.inr ⟨by simp [*], rfl⟩)

/-- A word issued is a command executed, or an illegal word recorded. -/
theorem issueWord_cases (w : CmdWord) (s : State) :
    (∃ i, decode w = some i ∧ issueWord w s = exec i s) ∨
    (decode w = none ∧ issueWord w s = execIllegal w s) := by
  unfold issueWord
  cases h : decode w with
  | some i => exact .inl ⟨i, rfl, rfl⟩
  | none => exact .inr ⟨rfl, rfl⟩

/-- Everything a step can do: the host issues a legal command that is not held, the host issues an
illegal word, the host branches, the engine moves, or nothing can move. -/
theorem step_cases (s : State) :
    (∃ w i, s.currentLine = some (.issue w) ∧ decode w = some i ∧ commandHeld i s = false ∧
      step s = exec i s.spend) ∨
    (∃ w, s.currentLine = some (.issue w) ∧ decode w = none ∧
      step s = execIllegal w s.spend) ∨
    (∃ n, step s = .next { s.spend with hostPc := n }) ∨
    (s.engineEnabled = true ∧ step s = .next (engineMove s.spend)) ∨
    (s.hostEnabled = false ∧ s.engineEnabled = false ∧ step s = .next s) := by
  rcases mover_cases s with ⟨hm, he⟩ | ⟨hm, he⟩ | ⟨hm, hh, he⟩
  · have hs : step s = hostMove s.spend := by simp [step, hm, moveOf]
    rcases hostMove_cases s.spend with ⟨w, hl, h⟩ | ⟨n, _, h⟩ | ⟨hl, h⟩
    · rw [spend_currentLine] at hl
      rcases issueWord_cases w s.spend with ⟨i, hd, h'⟩ | ⟨hd, h'⟩
      · refine .inl ⟨w, i, hl, hd, ?_, by rw [hs, h, h']⟩
        simpa [State.hostEnabled, State.hostHeld, hl, hd, State.halted] using he
      · exact .inr (.inl ⟨w, hl, hd, by rw [hs, h, h']⟩)
    · exact .inr (.inr (.inl ⟨n, by rw [hs, h]⟩))
    · have : s.halted = true := hl
      simp [State.hostEnabled, this] at he
  · exact .inr (.inr (.inr (.inl ⟨he, by simp [step, hm, moveOf]⟩)))
  · exact .inr (.inr (.inr (.inr ⟨hh, he, by simp [step, hm]⟩)))

end Sys2Proof.Machine
end

