-- ==== Sys2Proof/Laws/PerInstr.lean ====
section
/-! SUPPORT. A statement about every command as syntax, one lemma per constructor: its word is
selected by its own row of the opcode table and by no other (R72). -/

namespace Sys2Proof.Laws.Encoding

/-- The row of a command's mnemonic selects its word, and every row that does is that row. -/
def Statement (i : Instr) : Prop :=
  (∃ r ∈ opcodeTable, r.mnemonic = mnemonic i ∧ r.selects (encode i) = true) ∧
    ∀ r ∈ opcodeTable, r.selects (encode i) = true → r.mnemonic = mnemonic i

/-- The opcode table with its words taken apart into fields. -/
theorem opcodeTable_eq : opcodeTable =
    [ ⟨"CONFIG", cmdWord 0x01#8 0#32, cmdWord 0xFF#8 0#32⟩,
      ⟨"END", cmdWord 0x02#8 0#32, cmdWord 0xFF#8 0xFFFFFFFF#32⟩,
      ⟨"TXBYTE", cmdWord 0x03#8 0#32, cmdWord 0xFF#8 0xFFFFFF00#32⟩,
      ⟨"TXRAW", cmdWord 0x04#8 0#32, cmdWord 0xFF#8 0xFFFFFF00#32⟩,
      ⟨"POLLRDY", cmdWord 0x05#8 0#32, cmdWord 0xFF#8 0xFFFFFFFF#32⟩,
      ⟨"POLLTXC", cmdWord 0x06#8 0#32, cmdWord 0xFF#8 0xFFFFFFFF#32⟩,
      ⟨"FLUSH", cmdWord 0x07#8 0#32, cmdWord 0xFF#8 0xFFFFFFFF#32⟩ ] := by decide

theorem config (b : Word32) : Statement (.config b) := by
  simp [Statement, opcodeTable_eq, encode, mnemonic, selects_iff]

theorem endCmd : Statement .endCmd := by
  simp [Statement, opcodeTable_eq, encode, mnemonic, selects_iff]

theorem txbyte (d : Byte) : Statement (.txbyte d) := by
  have h := (byteRest_eq_zero_iff (d.setWidth 32)).1 (byteRest_setWidth d)
  simp [Statement, opcodeTable_eq, encode, mnemonic, selects_iff, h]

theorem txraw (d : Byte) : Statement (.txraw d) := by
  have h := (byteRest_eq_zero_iff (d.setWidth 32)).1 (byteRest_setWidth d)
  simp [Statement, opcodeTable_eq, encode, mnemonic, selects_iff, h]

theorem pollrdy : Statement .pollrdy := by
  simp [Statement, opcodeTable_eq, encode, mnemonic, selects_iff]

theorem polltxc : Statement .polltxc := by
  simp [Statement, opcodeTable_eq, encode, mnemonic, selects_iff]

theorem flush : Statement .flush := by
  simp [Statement, opcodeTable_eq, encode, mnemonic, selects_iff]

end Sys2Proof.Laws.Encoding
end

