-- ==== Sys2Proof/Tests/Slice0.lean ====
section
/-! SUPPORT. The model's own tests. Expected values are those of 95_test_vectors.md (the vector is named
at each test) or written out from the rule named. After them, one witness for every statement of the
obligations that has hypotheses. -/

namespace Sys2Proof.Tests

open Sys2Proof Sys2Proof.Machine

/-! ### The states of L2.3 -/

/-- The next state, if there is one. -/
def after (a : Answer) : Option State :=
  match a with
  | .next s => some s
  | .fault _ => none
  | .refused _ => none

/-- The state without the host agent's part, to compare block states. -/
def block (s : State) : State := { s with resps := [], hostPc := 0 }

/-- The block state a command leaves. -/
def leaves (i : Instr) (s : State) : Option State := (after (exec i s)).map block

/-- S0: reset. -/
def s0 : State := State.reset
/-- S1: S0, CONFIG 9600. -/
def s1 : State := { s0 with ctrl := ⟨true, true, true, true, false, false, false⟩, div := 207#12 }
/-- S2: S1, TXRAW 0x41. -/
def s2 : State := { s1 with txdata := 0x41#8, status := ⟨false, false, false⟩ }
/-- S3: S2, LOAD. -/
def s3 : State := { s2 with shift := 0x41#8, status := ⟨true, false, true⟩ }
/-- S4: S3, TXRAW 0x42. -/
def s4 : State := { s3 with txdata := 0x42#8, status := ⟨false, false, true⟩ }
/-- S5: S3, FRAME_DONE. -/
def s5 : State :=
  { s3 with status := ⟨true, true, false⟩, wire := [.frame 0x41#8 207#12 true 0x08#8] }
/-- S6: S5, END. -/
def s6 : State := { s5 with ctrl := ⟨false, false, false, true, false, false, false⟩ }

/-- The host's only line issues the word. -/
def atWord (s : State) (w : CmdWord) : State := { s with prog := [.issue w] }

/-! ### Encoding (L2.2, R81) -/

theorem test_decode_config : decode 0x010001C200#40 = some (.config 115200#32) := by decide
theorem test_decode_config_max : decode 0x01FFFFFFFF#40 = some (.config 4294967295#32) := by decide
theorem test_decode_end : decode 0x0200000000#40 = some .endCmd := by decide
theorem test_decode_txbyte : decode 0x0300000048#40 = some (.txbyte 0x48#8) := by decide
theorem test_decode_txraw : decode 0x0400000087#40 = some (.txraw 0x87#8) := by decide
theorem test_decode_pollrdy : decode 0x0500000000#40 = some .pollrdy := by decide
theorem test_decode_polltxc : decode 0x0600000000#40 = some .polltxc := by decide
theorem test_decode_flush : decode 0x0700000000#40 = some .flush := by decide

/-- V-ENC-16 to V-ENC-24. -/
theorem test_decode_illegal :
    [0x0000000000#40, 0x0800000000#40, 0xFF00000000#40, 0x0300000100#40, 0x0480000041#40,
      0x0200000001#40, 0x0500000080#40, 0x0600000001#40, 0x0700010000#40].map decode =
      List.replicate 9 none := by decide

/-- R72: the words written out from the table's match column. -/
theorem test_encode_words :
    [Instr.config 0#32, .endCmd, .txbyte 0#8, .txraw 0#8, .pollrdy, .polltxc, .flush].map encode =
      [0x0100000000#40, 0x0200000000#40, 0x0300000000#40, 0x0400000000#40, 0x0500000000#40,
        0x0600000000#40, 0x0700000000#40] := by decide

/-- R72: the rows of the table are pairwise disjoint: they differ in `OP`. -/
theorem test_rows_disjoint :
    opcodeTable.Pairwise fun r r' => r.pattern.extractLsb' 32 8 ≠ r'.pattern.extractLsb' 32 8 := by
  decide

theorem test_tableWord : decodeTableWord 40 0x0300000048 = some (.txbyte 0x48#8) := by decide

/-! ### Well-formedness: an ill-formed term for each check -/

theorem test_wordLegal_refuses : wordLegal 0x0300000100#40 = false := by decide
theorem test_wordLegal_accepts : wordLegal 0x03000000FF#40 = true := by decide
theorem test_asm_refuses_config : asmInRange (.config 4294967296) = false := by decide
theorem test_asm_refuses_txbyte : asmInRange (.txbyte 256) = false := by decide
theorem test_asm_refuses_txraw : asmInRange (.txraw 256) = false := by decide
theorem test_program_refuses_bz : programInRange [.bz 1] = false := by decide
theorem test_program_refuses_b : programInRange [.halt, .b 2] = false := by decide

/-! ### Assembler text (R80, R81) -/

/-- `CONFIG 57600` is 0x010000E100 (R81). -/
theorem test_asm_config :
    (assembleText ['C', 'O', 'N', 'F', 'I', 'G', ' ', '5', '7', '6', '0', '0']).map encode =
      some 0x010000E100#40 := by decide

/-- `TXBYTE 'H'` is 0x0300000048 and `TXRAW 0x87` is 0x0400000087 (R81). -/
theorem test_asm_bytes :
    (assembleText ['T', 'X', 'B', 'Y', 'T', 'E', ' ', '\'', 'H', '\'']).map encode =
      some 0x0300000048#40 ∧
    (assembleText ['T', 'X', 'R', 'A', 'W', ' ', '0', 'x', '8', '7']).map encode =
      some 0x0400000087#40 := by decide

/-- The two escapes of R80, binary, and an operand out of range. -/
theorem test_asm_literals :
    byteLiteral ['\'', '\\', 'r', '\''] = some 0x0D ∧
    byteLiteral ['\'', '\\', 'n', '\''] = some 0x0A ∧
    byteLiteral ['0', 'b', '1', '0', '1'] = some 5 ∧
    assembleText ['T', 'X', 'R', 'A', 'W', ' ', '2', '5', '6'] = none := by decide

/-! ### CONFIG and END (L2.4) -/

/-- C-CFG-1, with the numbers of R120's example. -/
theorem test_config_from_reset :
    leaves (.config 9600#32) s0 = some s1 ∧ ctrlWord s1.ctrl = 0x0F#8 ∧
      s1.statusWord = 0x09#8 := by decide

/-- C-CFG-8: 0x41 is cut off, 0x42 dropped. -/
theorem test_config_aborts :
    (leaves (.config 115200#32) s4).map (fun t => (t.wire, t.div, t.statusWord, t.faults)) =
      some ([.aborted 0x41#8], 16#12, 0x09#8, [3]) := by decide

/-- C-END-6. -/
theorem test_end_aborts :
    (leaves .endCmd s4).map (fun t => (ctrlWord t.ctrl, t.wire, t.statusWord, t.faults)) =
      some (0x08#8, [.aborted 0x41#8], 0x01#8, [4]) := by decide

/-- C-END-7. -/
theorem test_end_idle : leaves .endCmd s5 = some s6 ∧ s6.statusWord = 0x03#8 := by decide

/-! ### Polls and FLUSH (L2.4) -/

/-- C-RDY-1 to C-RDY-7. -/
theorem test_pollrdy_answers :
    [s0, s1, s2, s3, s4, s5, s6].map (fun s => (after (exec .pollrdy s)).map (·.resps)) =
      [some [0#32], some [1#32], some [0#32], some [1#32], some [0#32], some [1#32],
        some [0#32]] := by decide

theorem test_pollrdy_changes_nothing : leaves .pollrdy s4 = some s4 := by decide

/-- C-TXC-1 to C-TXC-3. -/
theorem test_polltxc_answers :
    [s0, s4, s5, s6].map (fun s => (after (exec .polltxc s)).map (·.resps)) =
      [some [0#32], some [0#32], some [1#32], some [1#32]] := by decide

/-- C-FLS-1: held in S1, and the run hangs. -/
theorem test_flush_hangs :
    (atWord s1 0x0700000000#40).runEnd = .hung ∧
      after (step (atWord s1 0x0700000000#40)) = some (atWord s1 0x0700000000#40) := by decide

/-- C-FLS-4: accepted at once while powered down. -/
theorem test_flush_accepted : (after (exec .flush s6)).map (·.resps) = some [0#32] := by decide

/-! ### TXBYTE and TXRAW (L2.5) -/

/-- C-TXB-6. -/
theorem test_txbyte_accepted :
    (leaves (.txbyte 0x43#8) s5).map (fun t => (t.txdata, t.statusWord)) =
      some (0x43#8, 0x00#8) := by decide

/-- C-TXB-1 and C-TXB-7: a hang. -/
theorem test_txbyte_hangs :
    (atWord s0 0x0300000043#40).runEnd = .hung ∧
      (atWord s6 0x0300000043#40).runEnd = .hung := by decide

/-- C-RAW-4. -/
theorem test_txraw_accepted :
    (leaves (.txraw 0x43#8) s3).map (fun t => (t.txdata, t.statusWord, t.faults)) =
      some (0x43#8, 0x04#8, []) := by decide

/-- C-RAW-5: `TXDATA` stays 0x42. -/
theorem test_txraw_discarded :
    (leaves (.txraw 0x43#8) s4).map (fun t => (t.txdata, t.faults)) =
      some (0x42#8, [2]) := by decide

/-- V-ENC-19 issued from reset: code 1, response 0, no other change. -/
theorem test_illegal_word :
    (after (issueWord 0x0300000100#40 s0)).map (fun t => (t.resps, t.faults)) =
      some ([0#32], [1]) := by decide

/-! ### The engine (L2.6) -/

/-- V-ENG-1: the engine is idle. -/
theorem test_engine_idle :
    [s0, s1, s5, s6].map (·.engineEnabled) = [false, false, false, false] := by decide

/-- V-ENG-2 and V-ENG-3. -/
theorem test_engine_sends : engineMove s2 = s3 ∧ engineMove s3 = s5 := by decide

/-- V-ENG-4: the reload. -/
theorem test_engine_reloads :
    (engineMove s4).wire = [.frame 0x41#8 207#12 true 0x08#8] ∧ (engineMove s4).shift = 0x42#8 ∧
      (engineMove s4).statusWord = 0x0D#8 := by decide

/-! ### The calculator (L2.1) -/

/-- V-CALC-5, 7, 8 and 18: the clamp's edge, the two sides of the range test, the special case. -/
theorem test_calc_16MHz :
    baudCalc .ideal 16000000 300 = (3332, false) ∧ baudCalc .ideal 16000000 488 = (2048, false) ∧
      baudCalc .ideal 16000000 489 = (4089, true) ∧
      baudCalc .ideal 16000000 57600 = (16, false) := by decide

/-- V-CALC-21, 30 and 32: an inexact rate, and quotients of 0. -/
theorem test_calc_high_rates :
    baudCalc .ideal 16000000 230400 = (8, true) ∧ baudCalc .ideal 16000000 4000001 = (0, true) ∧
      baudCalc .ideal 16000000 4294967295 = (0, true) := by decide

/-- V-CALC-34, 43 and 44: other clocks at 57600. -/
theorem test_calc_other_clocks :
    baudCalc .ideal 16000001 57600 = (34, true) ∧
      baudCalc .ideal 1887667199 57600 = (4095, true) ∧
      baudCalc .ideal 1887667200 57600 = (2047, false) := by decide

/-- V-CALC-39, 42 and 45: the divisor kept modulo 4096. -/
theorem test_calc_modulo :
    programmed ⟨20000000#32, .ideal⟩ 300#32 = (70#12, false) ∧
      programmed ⟨19663200#32, .ideal⟩ 300#32 = (0#12, false) ∧
      programmed ⟨4294967295#32, .ideal⟩ 300#32 = (1856#12, false) := by decide

/-- 93_implementation_defined.md: the example of the wrapping reading. -/
theorem test_calc_wrap32 :
    programmed ⟨16000000#32, .wrap32⟩ 4000001#32 = (4095#12, false) := by decide

/-- R114's figures: 230400 at 16 MHz is outside 3%, 9600 is within it (V-CALC-21 and the example of
R110). -/
theorem test_rate_tolerance :
    ¬rateWithin (3 / 100) ⟨16000000#32, .ideal⟩ 230400#32 ∧
      rateWithin (3 / 100) ⟨16000000#32, .ideal⟩ 9600#32 := by
  have p1 : programmed ⟨16000000#32, .ideal⟩ 230400#32 = (8#12, true) := by decide
  have p2 : programmed ⟨16000000#32, .ideal⟩ 9600#32 = (207#12, true) := by decide
  constructor <;>
    norm_num [rateWithin, p1, p2, effectiveRate, clockHz, clampBaud, requestedBaud]

/-! ### The step -/

/-- A word placed at reset is executed by the very next step. -/
theorem test_placed_word_runs :
    (after (step (State.reset.withFetchWord 40 0x0100002580))).map
      (fun t => (t.div, t.resps)) = some (207#12, [0#32]) := by decide

/-- R159: with both agents enabled the state says which moves. -/
theorem test_interleaving :
    (after (step { atWord s3 0x0500000000#40 with sched := [.host] })).map (·.resps) =
      some [1#32] ∧
    (after (step { atWord s3 0x0500000000#40 with sched := [.engine] })).map (·.wire) =
      some s5.wire := by decide

/-- HZ1 to HZ5 (R194). -/
theorem test_hazards :
    hazard (.txraw 0#8) s2 = some .hz1 ∧ hazard .endCmd s2 = some .hz2 ∧
      hazard (.config 9600#32) s3 = some .hz3 ∧ hazard (.txbyte 0#8) s0 = some .hz4 ∧
      hazard .flush s1 = some .hz5 := by decide

/-- R193: the order of P1 is intended, and END without FLUSH (P3) is not. -/
theorem test_intended_order :
    intendedOrder [.config 9600#32, .txbyte 0x48#8, .flush, .endCmd] = true ∧
      intendedOrder [.config 9600#32, .txbyte 0x41#8, .endCmd] = false := by decide

/-! ### Witnesses: the hypotheses of each statement can be met -/

theorem inv_s0 : s0.Inv := ⟨by decide, by decide, rfl, by decide, by decide, by decide⟩
theorem inv_s2 : s2.Inv := ⟨by decide, by decide, rfl, by decide, by decide, by decide⟩
theorem inv_s4 : s4.Inv := ⟨by decide, by decide, rfl, by decide, by decide, by decide⟩
theorem inv_s5 : s5.Inv := ⟨by decide, by decide, rfl, by decide, by decide, by decide⟩

theorem witness_DecodeEncodeAgree : decode 0x03000000FF#40 = some (.txbyte 0xFF#8) := by decide

/-- One illegal word at each edge of the cases of R76. -/
theorem witness_IllegalWordsChangeNothing :
    decode 0x0000000000#40 = none ∧ decode 0x0800000000#40 = none ∧
      decode 0xFF00000000#40 = none ∧ decode 0x0200000001#40 = none ∧
      decode 0x0700010000#40 = none ∧ decode 0x0300000100#40 = none ∧
      decode 0x0480000041#40 = none := by decide

theorem witness_StepMovesOneAgent :
    (atWord s1 0x0500000000#40).mover = some .host ∧ s2.mover = some .engine ∧
      s0.mover = none := by decide

theorem witness_StepRunsDecodedCommand :
    (atWord s1 0x0500000000#40).currentLine = some (.issue 0x0500000000#40) ∧
      decode 0x0500000000#40 = some .pollrdy ∧
      (atWord s1 0x0500000000#40).mover = some .host := by decide

theorem witness_EitherAgentMayMove :
    (atWord s3 0x0500000000#40).hostEnabled = true ∧
      (atWord s3 0x0500000000#40).engineEnabled = true := by decide

theorem witness_HostLinesBranch :
    { s0 with prog := [.bz 0], resps := [1#32] }.currentLine = some (.bz 0) ∧
      { s0 with prog := [.bz 0], resps := [1#32] }.resps = [] ++ [1#32] ∧
      { s0 with prog := [.b 0] }.currentLine = some (.b 0) ∧
      { s0 with prog := [.halt] }.currentLine = some .halt := by decide

theorem witness_HeldCommandsWait :
    (atWord s0 0x0300000043#40).issuing = some (.txbyte 0x43#8) ∧
      commandHeld (.txbyte 0x43#8) (atWord s0 0x0300000043#40) = true ∧
      (atWord s2 0x0700000000#40).issuing = some .flush ∧
      commandHeld .flush (atWord s2 0x0700000000#40) = true ∧
      (after (step (atWord s2 0x0700000000#40))).isSome = true := by decide

theorem witness_EndIsIdempotent : ∃ t, exec .endCmd s4 = .next t := ⟨_, rfl⟩

theorem witness_AbortDiscardsPending :
    (s4.status.busy = true ∨ s4.status.udre = false) ∧
      (s2.status.busy = true ∨ s2.status.udre = false) ∧
      (s1.status.busy = false ∧ s1.status.udre = true) ∧ s4.Inv :=
  ⟨by decide, by decide, by decide, inv_s4⟩

theorem witness_ControlCommandsFrame :
    (∃ t, exec .endCmd s4 = .next t) ∧ ∃ t, exec (.config 300#32) s3 = .next t :=
  ⟨⟨_, rfl⟩, ⟨_, rfl⟩⟩

theorem witness_PolltxcResult : ∃ t, exec .endCmd s5 = .next t := ⟨_, rfl⟩

/-- `READY` changes by the engine from S2, and by TXRAW from S1. -/
theorem witness_ReadyChangesOnlyBy :
    (∃ t u, exec .pollrdy s1 = .next t ∧ exec .pollrdy t = .next u) ∧
      (∃ t, step s2 = .next t ∧ t.ready ≠ s2.ready) ∧
      ∃ t, step (atWord s1 0x0400000043#40) = .next t ∧
        t.ready ≠ (atWord s1 0x0400000043#40).ready :=
  ⟨⟨_, _, rfl, rfl⟩, ⟨_, rfl, by decide⟩, ⟨_, rfl, by decide⟩⟩

theorem witness_FlushCompletes : s5.status.txc = true := by decide

theorem witness_PollsFrame :
    (∃ t, exec .pollrdy s4 = .next t) ∧ (∃ t, exec .polltxc s4 = .next t) ∧
      (∃ t, exec .flush s5 = .next t) ∧ ∃ t, exec .flush s4 = .next t :=
  ⟨⟨_, rfl⟩, ⟨_, rfl⟩, ⟨_, rfl⟩, ⟨_, rfl⟩⟩

theorem witness_TxbyteCompletes :
    s3.ctrl.pwr = true ∧ s3.ctrl.txen = true ∧ s3.status.udre = true := by decide

theorem witness_TxrawAccepted :
    s1.ctrl.pwr = true ∧ s1.ctrl.txen = true ∧ s1.status.udre = true := by decide

/-- Not ready because the buffer is full (S2), or because the block is off (S6). -/
theorem witness_TxrawDiscarded :
    ¬(s2.ctrl.pwr = true ∧ s2.ctrl.txen = true ∧ s2.status.udre = true) ∧
      ¬(s6.ctrl.pwr = true ∧ s6.ctrl.txen = true ∧ s6.status.udre = true) := by decide

theorem witness_TxrawAfterReadyIsTxbyte : s3.ready = true := by decide

theorem witness_TransmitCommandsFrame :
    (∃ t, exec (.txbyte 0x43#8) s1 = .next t) ∧ (∃ t, exec (.txbyte 0x43#8) s2 = .next t) ∧
      (∃ t, exec (.txraw 0x43#8) s2 = .next t) ∧ s2.ready = false :=
  ⟨⟨_, rfl⟩, ⟨_, rfl⟩, ⟨_, rfl⟩, by decide⟩

theorem witness_EngineStepsEnabled :
    s1.loadEnabled = false ∧ s1.frameDoneEnabled = false := by decide

theorem witness_LoadStartsFrame : s2.loadEnabled = true := by decide

theorem witness_FrameDoneSendsFrame :
    (s4.frameDoneEnabled = true ∧ s4.status.udre = false) ∧
      s3.frameDoneEnabled = true ∧ s3.status.udre = true := by decide

theorem witness_EngineStopsOnlyWhenOff :
    s6.ctrl.pwr = false ∧ s6.ctrl.txen = false ∧
      (∃ t, step (atWord s1 0x0200000000#40) = .next t ∧
        (atWord s1 0x0200000000#40).enabled = true ∧ t.enabled = false) ∧
      s2.Inv ∧ s2.pending = true :=
  ⟨by decide, by decide, ⟨_, rfl, by decide, by decide⟩, inv_s2, by decide⟩

theorem witness_EngineKeepsReadyAndComplete :
    s3.ready = true ∧ s5.status.txc = true := by decide

theorem witness_FlagWriteTable :
    (∃ t, exec (.config 300#32) s4 = .next t) ∧ (∃ t, exec .endCmd s4 = .next t) ∧
      (s1.ready = true ∧ ∃ t, exec (.txbyte 0#8) s1 = .next t) ∧
      (s2.ready = false ∧ ∃ t, exec (.txraw 0#8) s2 = .next t) ∧
      (∃ t, exec .flush s5 = .next t) ∧ s4.status.udre = false ∧ s3.status.udre = true :=
  ⟨⟨_, rfl⟩, ⟨_, rfl⟩, ⟨by decide, _, rfl⟩, ⟨by decide, _, rfl⟩, ⟨_, rfl⟩, by decide, by decide⟩

theorem witness_InvariantKept : s2.Inv ∧ ∃ t, step s2 = .next t := ⟨inv_s2, _, rfl⟩

/-- CONFIG then TXRAW: a byte is pending after two steps, and complete after two more. -/
theorem witness_PendingOnlyWhileEnabled :
    (∃ t, Host.Core.run core 2
      { State.reset with prog := [.issue 0x0100002580#40, .issue 0x0400000041#40] } = .next t ∧
        t.status.udre = false) ∧
    ∃ t, Host.Core.run core 4
      { State.reset with prog := [.issue 0x0100002580#40, .issue 0x0400000041#40] } = .next t ∧
        t.status.txc = true :=
  ⟨⟨_, rfl, rfl⟩, ⟨_, rfl, rfl⟩⟩

/-- A step that accepts, one that drops a byte, and one of the engine. -/
theorem witness_WireKeepsAcceptanceOrder :
    (∃ t, step (atWord s1 0x0300000043#40) = .next t) ∧
      (∃ t, step { atWord s4 0x0200000000#40 with sched := [.host] } = .next t) ∧
      ∃ t, step s3 = .next t :=
  ⟨⟨_, rfl⟩, ⟨_, rfl⟩, ⟨_, rfl⟩⟩

theorem witness_LogsOnlyGrow : ∃ t, step s3 = .next t := ⟨_, rfl⟩

theorem witness_OnlyConfigWritesDivisor :
    (∃ t, step (atWord s1 0x010000012C#40) = .next t ∧
      t.div ≠ (atWord s1 0x010000012C#40).div ∧
      t.ctrl.u2x ≠ (atWord s1 0x010000012C#40).ctrl.u2x) ∧
    ∃ t, exec .endCmd s1 = .next t :=
  ⟨⟨_, rfl, by decide, by decide⟩, ⟨_, rfl⟩⟩

theorem witness_ConfigurationFixedDuringFrame :
    ∃ t, step s4 = .next t ∧ s4.status.busy = true ∧ t.status.busy = true :=
  ⟨_, rfl, by decide, by decide⟩

theorem witness_PowerStates :
    s6.ctrl.pwr = false ∧ (∃ t, exec .endCmd s5 = .next t) ∧
      ∃ t, step (atWord s0 0x0100002580#40) = .next t ∧
        (atWord s0 0x0100002580#40).ctrl.pwr = false ∧ t.ctrl.pwr = true :=
  ⟨by decide, ⟨_, rfl⟩, ⟨_, rfl, by decide, by decide⟩⟩

theorem witness_InterruptsNeverAsserted :
    (∃ t, issueWord 0x0100002580#40 s2 = .next t) ∧ s2.Inv ∧ ∃ t, step s2 = .next t :=
  ⟨⟨_, rfl⟩, inv_s2, ⟨_, rfl⟩⟩

/-- A FLUSH with one byte in each stage, and one with a byte in `TXDATA` only. -/
theorem witness_FlushCompletesWithPending :
    (atWord s4 0x0700000000#40).Inv ∧
      (atWord s4 0x0700000000#40).issuing = some .flush ∧
      (atWord s4 0x0700000000#40).pending = true ∧
      (atWord s2 0x0700000000#40).pending = true :=
  ⟨⟨by decide, by decide, rfl, by decide, by decide, by decide⟩, by decide, by decide, by decide⟩

/-- The run that sends the byte of S2 with the host at the end of its program. -/
def sendingRun : Nat → State
  | 0 => s2
  | 1 => engineMove s2.spend
  | _ + 2 => engineMove (engineMove s2.spend).spend

theorem witness_FairRunsSendEveryByte :
    WeaklyFair sendingRun ∧ (sendingRun 0).Inv ∧
      (∀ n, (sendingRun n).issuing ≠ some .endCmd ∧
        ∀ b, (sendingRun n).issuing ≠ some (.config b)) ∧
      (sendingRun 0).pending = true := by
  have hprog : ∀ n, (sendingRun n).issuing = none ∧ (sendingRun n).hostEnabled = false := by
    intro n
    match n with
    | 0 => exact ⟨rfl, rfl⟩
    | 1 => exact ⟨rfl, rfl⟩
    | _ + 2 => exact ⟨rfl, rfl⟩
  refine ⟨⟨fun n => ?_, fun n h => ?_, fun n h => ?_⟩, inv_s2, fun n => ?_, by decide⟩
  · match n with
    | 0 => rfl
    | 1 => rfl
    | _ + 2 => rfl
  · have e : (sendingRun (n + 2)).engineEnabled = false := rfl
    exact absurd (h (n + 2) (by omega)) (by simp [e])
  · exact absurd (h n (le_refl n)) (by simp [(hprog n).2])
  · simp [(hprog n).1]

/-- TXBYTE on a configured block with nothing, one byte and two bytes pending. -/
theorem witness_TxbyteAcceptedWhenConfigured :
    [s1, s2, s4].map (fun s => ((atWord s 0x0300000043#40).enabled,
      (atWord s 0x0300000043#40).issuing)) =
        List.replicate 3 (true, some (.txbyte 0x43#8)) := by decide

theorem witness_HangsAreForever :
    ((atWord s0 0x0300000043#40).issuing = some (.txbyte 0x43#8) ∧
      (atWord s0 0x0300000043#40).enabled = false) ∧
    (atWord s1 0x0700000000#40).issuing = some .flush ∧
      (atWord s1 0x0700000000#40).status.txc = false ∧
      (atWord s1 0x0700000000#40).pending = false := by decide

/-- `TXDATA` and `SHIFT` both dead, and each of them live in turn. -/
theorem witness_DeadRegistersUnobservable :
    (s1.agreeOnLive { s1 with txdata := 0xAA#8, shift := 0x55#8 } ∧
      s2.agreeOnLive { s2 with shift := 0x55#8 } ∧ s3.agreeOnLive { s3 with txdata := 0xAA#8 }) ∧
      (∃ t, step s1 = .next t) ∧ (∃ t, step s2 = .next t) ∧ ∃ t, step s3 = .next t :=
  ⟨⟨⟨rfl, by decide, by decide⟩, ⟨rfl, by decide, by decide⟩, ⟨rfl, by decide, by decide⟩⟩,
    ⟨_, rfl⟩, ⟨_, rfl⟩, ⟨_, rfl⟩⟩

theorem witness_ReadyMeansFreeAndEnabled :
    (∃ t, exec .pollrdy s2 = .next t) ∧ (∃ t, exec .endCmd s1 = .next t) ∧
      ∃ t, step (atWord s0 0x0100002580#40) = .next t ∧
        (atWord s0 0x0100002580#40).enabled = false ∧ t.ready = true :=
  ⟨⟨_, rfl⟩, ⟨_, rfl⟩, ⟨_, rfl, by decide, by decide⟩⟩

/-- A command at each hazard (test_hazards gives the hazards), and one at none. -/
theorem witness_ResetState :
    atWord s0 0x0100002580#40 = { State.reset with
      params := (atWord s0 0x0100002580#40).params
      prog := (atWord s0 0x0100002580#40).prog
      sched := (atWord s0 0x0100002580#40).sched } ∧
      ∃ t, Host.Core.run core 1 (atWord s0 0x0100002580#40) = .next t :=
  ⟨rfl, _, rfl⟩

theorem witness_HazardsAreTheBadCases :
    ((atWord s2 0x0400000000#40).issuing = some (.txraw 0#8) ∧
      (atWord s2 0x0200000000#40).issuing = some .endCmd ∧
      (atWord s3 0x0100002580#40).issuing = some (.config 9600#32) ∧
      (atWord s0 0x0300000000#40).issuing = some (.txbyte 0#8) ∧
      (atWord s1 0x0700000000#40).issuing = some .flush ∧
      hazard .flush (atWord s5 0x0700000000#40) = none) ∧
    ∃ t, exec .flush (atWord s5 0x0700000000#40) = .next t :=
  ⟨by decide, _, rfl⟩

theorem witness_RatesBelow300Clamp : (299 : Nat) < 300 := by decide

theorem witness_BaudCalcDefinition : (baudCalc .ideal 1887667199 57600).2 = true := by decide

theorem witness_DivisorClosedForm : (2 : Nat) ≤ 2 ∧ (1 : Nat) ≤ 1 ∧ halve .ideal 8193 > 4095 := by
  decide

/-- The set of the one pair 16 MHz and 4 000 000, which is off by half its rate (V-CALC-29), and that
of 16 MHz and 230400 (V-CALC-21): each has the property at the tolerance 1/2. -/
theorem witness_SpecialRateProperties :
    ((16000001 : Nat) ≠ 16000000 ∧ (299 : Nat) < 300) ∧
      rateProperty .ideal (1 / 2) (fun f b => f = 16000000#32 ∧ b = 4000000#32) ∧
      rateProperty .ideal (1 / 2) (fun f b => f = 16000000#32 ∧ b = 230400#32) := by
  have p1 : programmed ⟨16000000#32, .ideal⟩ 4000000#32 = (0#12, true) := by decide
  have p2 : programmed ⟨16000000#32, .ideal⟩ 230400#32 = (8#12, true) := by decide
  refine ⟨by decide, ?_, ?_⟩ <;> rintro _ _ ⟨rfl, rfl⟩ <;>
    norm_num [rateWithin, p1, p2, effectiveRate, clockHz, clampBaud, requestedBaud]

/-- The ranges of R113 at their edges. -/
theorem witness_ReferenceClockRanges :
    (300 ≤ 488 ∧ 488 ≤ 488) ∧ (489 ≤ 489 ∧ 489 ≠ 57600) ∧ (1333334 : Nat) ≤ 1333334 := by decide

theorem witness_FallbackOverflowClocks :
    (300 : Nat) ≤ 300 ∧ 8193 ≤ quotient8 19663200 300 ∧ quotient8 19663199 300 = 8192 := by decide

theorem witness_HighRatesGiveZero :
    quotient4 16000000 (clampBaud 1333334) < 3 ∧ quotient4 1200 (clampBaud 0) < 3 := by decide

theorem witness_DivisorIsNearestWithinMode :
    0 < 300 ∧ 4 * 300 ≤ 1200 ∧ (8 : Nat) * 300 ≤ 2400 := by decide

theorem witness_WrappingReadingDiffers :
    (1200 < 4294967296 ∧ quotient4 1200 (clampBaud 300) = 1 ∧ quotient8 1200 (clampBaud 300) = 0) ∧
      quotient4 16000000 (clampBaud 4000001) = 0 := by decide

theorem witness_PseudoExpansions : ∀ b ∈ [0x48#8, 0x69#8], b ≠ 0#8 := by decide

end Sys2Proof.Tests
end

/-! SUPPORT and PROOFS. The next state of each command, which commands write the configuration
registers (`CTRL`, `DIV` and `FRAME`), and the two statements on them: O38 (`DIV` and `U2X`) and O47
(`READY`). -/

namespace Sys2Proof.Machine

/-! ### The next state of each command -/

section exec

variable (b : Word32) (d : Byte) (s : State)

theorem exec_config : exec (.config b) s = .next (respond zeroResponse
    (writeConfig (programmed s.params b) (abortPending .configWhilePending s))) := rfl

theorem exec_endCmd : exec .endCmd s =
    .next (respond zeroResponse (writeEnd (abortPending .endWhilePending s))) := rfl

theorem exec_txbyte : exec (.txbyte d) s =
    holdWhile (!s.ready) (fun t => respond zeroResponse (accept d t)) s := rfl

theorem exec_txraw : exec (.txraw d) s =
    .next (respond zeroResponse (if s.ready then accept d s else raise (.txNotReady d) s)) := rfl

theorem exec_pollrdy : exec .pollrdy s = .next (respond (flagResponse s.ready) s) := rfl

theorem exec_polltxc : exec .polltxc s = .next (respond (flagResponse s.status.txc) s) := rfl

theorem exec_flush : exec .flush s =
    holdWhile (!s.status.txc) (respond zeroResponse) s := rfl

end exec

/-- A command that may be held changes nothing or takes its effect (R131). -/
theorem holdWhile_next {c : Bool} {k : State → State} {s t : State}
    (h : holdWhile c k s = .next t) : t = s ∨ t = k s := by
  cases c with
  | true => exact .inl (by simpa [holdWhile_held] using h.symm)
  | false => exact .inr (by simpa [holdWhile_lifted] using h.symm)

/-- The command at which the host is, at a line that issues a word. -/
theorem issuing_of_issue {s : State} {w : CmdWord} (h : s.currentLine = some (.issue w)) :
    s.issuing = decode w := by
  simp [State.issuing, h]

/-! ### What the commands write of the configuration registers -/

/-- `t` has the configuration registers of `s`: `CTRL`, `DIV` and `FRAME`. -/
structure State.SameConfiguration (s t : State) : Prop where
  ctrl : t.ctrl = s.ctrl
  div : t.div = s.div
  frame : t.frame = s.frame

/-- A held command has no effect, so it keeps the configuration registers if its effect does. -/
theorem holdWhile_sameConfiguration {c : Bool} {k : State → State} {s t : State}
    (h : holdWhile c k s = .next t) (hk : s.SameConfiguration (k s)) : s.SameConfiguration t := by
  obtain rfl | rfl := holdWhile_next h
  · exact ⟨rfl, rfl, rfl⟩
  · exact hk

/-- The commands but CONFIG: END clears the enables in `CTRL` and writes no other configuration
register, and the rest write none (R56, R120, R124). -/
theorem exec_configuration {i : Instr} {s t : State} (h : exec i s = .next t) :
    (∃ b, i = .config b) ∨
    (i = .endCmd ∧ t.ctrl = endCtrl s.ctrl ∧ t.div = s.div ∧ t.frame = s.frame) ∨
    s.SameConfiguration t := by
  cases i with
  | config b => exact .inl ⟨b, rfl⟩
  | endCmd =>
    rw [exec_endCmd] at h
    cases h
    exact .inr (.inl (by simp))
  | txbyte d =>
    rw [exec_txbyte] at h
    exact .inr (.inr (holdWhile_sameConfiguration h ⟨rfl, rfl, rfl⟩))
  | txraw d =>
    rw [exec_txraw] at h
    cases h
    refine .inr (.inr ?_)
    split
    · exact ⟨rfl, rfl, rfl⟩
    · exact ⟨rfl, rfl, rfl⟩
  | pollrdy => cases h; exact .inr (.inr ⟨rfl, rfl, rfl⟩)
  | polltxc => cases h; exact .inr (.inr ⟨rfl, rfl, rfl⟩)
  | flush =>
    rw [exec_flush] at h
    exact .inr (.inr (holdWhile_sameConfiguration h ⟨rfl, rfl, rfl⟩))

/-- Only a step that issues CONFIG or END writes a configuration register, and END only the enables
in `CTRL`. -/
theorem step_configuration {s t : State} (h : step s = .next t) :
    (∃ b, s.issuing = some (.config b)) ∨
    (s.issuing = some .endCmd ∧ t.ctrl = endCtrl s.ctrl ∧ t.div = s.div ∧ t.frame = s.frame) ∨
    s.SameConfiguration t := by
  obtain ⟨w, i, hl, hd, -, hs⟩ | ⟨w, -, -, hs⟩ | ⟨n, hs⟩ | ⟨-, hs⟩ | ⟨-, -, hs⟩ := step_cases s <;>
    rw [hs] at h
  case inl =>
    have hi : s.issuing = some i := (issuing_of_issue hl).trans hd
    obtain ⟨b, rfl⟩ | ⟨rfl, hend⟩ | hsame := exec_configuration h
    · exact .inl ⟨b, hi⟩
    · exact .inr (.inl ⟨hi, hend⟩)
    · exact .inr (.inr ⟨hsame.ctrl, hsame.div, hsame.frame⟩)
  all_goals
    cases h
    refine .inr (.inr ?_)
  · exact ⟨rfl, rfl, rfl⟩
  · exact ⟨rfl, rfl, rfl⟩
  · exact ⟨by simp, by simp, by simp⟩
  · exact ⟨rfl, rfl, rfl⟩

/-! ### O38: `DIV` and `U2X` -/

/-- The divisor register holds the calculator's integer modulo 4096 (R25, R107). -/
theorem toNat_divisorField (div : Int) : ((divisorField div).toNat : Int) = div % 4096 := by
  have hnonneg : 0 ≤ div % 4096 := Int.emod_nonneg _ (by decide)
  simpa [divisorField, BitVec.toNat_ofInt] using hnonneg

/-- Settles O38: a step that issues no CONFIG keeps `DIV` and `U2X`, also when it issues END. -/
theorem onlyConfigWritesDivisor : Obligations.OnlyConfigWritesDivisor := by
  refine ⟨fun s t h hne => ?_, fun s t b h => ?_, fun s t h => ?_, rfl⟩
  · obtain hconfig | ⟨-, hctrl, hdiv, -⟩ | hsame := step_configuration h
    · exact hconfig
    · simp [hctrl, hdiv] at hne
    · simp [hsame.ctrl, hsame.div] at hne
  · rw [exec_config] at h
    cases h
    exact ⟨toNat_divisorField _, rfl⟩
  · rw [exec_endCmd] at h
    cases h
    simp

/-! ### O47: `READY` -/

/-- A poll's response is the flag as a number (R9, R31). -/
theorem flagResponse_eq (flag : Bool) : flagResponse flag = if flag then 1#32 else 0#32 := by
  cases flag with
  | true => rfl
  | false => rfl

/-- END powers the block down, so `READY` is 0 under the control bits it writes (R28, R124). -/
theorem ready_of_endCtrl {s t : State} (h : t.ctrl = endCtrl s.ctrl) : t.ready = false := by
  simp [State.ready, h]

/-- With the control bits of a block that is not enabled, `READY` is 0 (R28). -/
theorem ready_of_not_enabled {s t : State} (h : t.ctrl = s.ctrl) (hs : s.enabled = false) :
    t.ready = false := by
  have ht : t.enabled = false := by rw [← hs, State.enabled, State.enabled, h]
  rw [ready_eq, ht, Bool.false_and]

/-- Settles O47: `READY` needs both enables, which only CONFIG sets and END clears. -/
theorem readyMeansFreeAndEnabled : Obligations.ReadyMeansFreeAndEnabled := by
  refine ⟨fun s => rfl, fun s t h => ?_, fun s d => rfl, rfl, fun s t h => ?_,
    fun s t h hoff hready => ?_⟩
  · rw [exec_pollrdy] at h
    cases h
    simp [flagResponse_eq]
  · rw [exec_endCmd] at h
    cases h
    exact ready_of_endCtrl (s := s) (by simp)
  · obtain hconfig | ⟨-, hend, -⟩ | hsame := step_configuration h
    · exact hconfig
    · simp [ready_of_endCtrl hend] at hready
    · simp [ready_of_not_enabled hsame.ctrl hoff] at hready

end Sys2Proof.Machine

/-! SUPPORT and PROOFS. The masks of the opcode table and the decoder, each in the fields of the word
(R71 to R77), and the two statements on them: O3 (the rows of the table) and O4 (illegal words). -/

namespace Sys2Proof

/-! ### What a masked word says of the fields (R72) -/

section masks

variable (op : BitVec 8) (w : CmdWord)

/-- The mask of a row and its match compare the two fields apart. -/
theorem and_cmdWord_eq_iff (opm : BitVec 8) (arg argm : Word32) :
    w &&& cmdWord opm argm = cmdWord op arg ↔ opField w &&& opm = op ∧ argField w &&& argm = arg := by
  rw [← selects_iff "", OpcodeRow.selects, beq_iff_eq]

theorem opField_and_ones : opField w &&& 0xFF#8 = opField w := BitVec.and_allOnes

/-- CONFIG's mask leaves the argument free (R73). -/
theorem and_opMask_eq_iff :
    w &&& cmdWord 0xFF#8 0#32 = cmdWord op 0#32 ↔ opField w = op := by
  simp [and_cmdWord_eq_iff, opField_and_ones]

/-- The mask of TXBYTE and TXRAW leaves the byte operand free (R74). -/
theorem and_byteMask_eq_iff :
    w &&& cmdWord 0xFF#8 0xFFFFFF00#32 = cmdWord op 0#32 ↔
      opField w = op ∧ byteRest (argField w) = 0#24 := by
  rw [and_cmdWord_eq_iff, opField_and_ones, byteRest_eq_zero_iff]

/-- The mask of the commands without an operand leaves nothing free (R75). -/
theorem and_wordMask_eq_iff :
    w &&& cmdWord 0xFF#8 0xFFFFFFFF#32 = cmdWord op 0#32 ↔ opField w = op ∧ argField w = 0#32 := by
  have hones : argField w &&& 0xFFFFFFFF#32 = argField w := BitVec.and_allOnes
  rw [and_cmdWord_eq_iff, opField_and_ones, hones]

end masks

/-! ### The decoder and the encoder (R77) -/

theorem decode_encode (i : Instr) : decode (encode i) = some i := by
  cases i <;> simp [decode, encode]

theorem cmdWord_of_fields {w : CmdWord} {op : BitVec 8} {arg : Word32} (hop : opField w = op)
    (harg : argField w = arg) : cmdWord op arg = w := by
  rw [← hop, ← harg, cmdWord_fields]

/-- Each branch of R77 fixes the two fields of the word, so the word is the command's. -/
theorem encode_of_decode {w : CmdWord} {i : Instr} (h : decode w = some i) : encode i = w := by
  simp only [decode] at h
  split_ifs at h with hconfig htxbyte htxraw hend hpollrdy hpolltxc hflush <;> cases h
  · exact cmdWord_of_fields hconfig rfl
  · exact cmdWord_of_fields htxbyte.1 (setWidth_byteOperand htxbyte.2).symm
  · exact cmdWord_of_fields htxraw.1 (setWidth_byteOperand htxraw.2).symm
  · exact cmdWord_of_fields hend.1 hend.2
  · exact cmdWord_of_fields hpollrdy.1 hpollrdy.2
  · exact cmdWord_of_fields hpolltxc.1 hpolltxc.2
  · exact cmdWord_of_fields hflush.1 hflush.2

/-- The decoder gives exactly the command whose word it reads. -/
theorem decode_eq_some_iff (w : CmdWord) (i : Instr) : decode w = some i ↔ encode i = w :=
  ⟨encode_of_decode, fun h => h ▸ decode_encode i⟩

/-- A word is made of an opcode and an argument iff those are its fields (R71). -/
theorem cmdWord_eq_iff (op : BitVec 8) (arg : Word32) (w : CmdWord) :
    cmdWord op arg = w ↔ opField w = op ∧ argField w = arg := by
  constructor
  · rintro rfl
    exact ⟨opField_cmdWord op arg, argField_cmdWord op arg⟩
  · rintro ⟨hop, harg⟩
    exact cmdWord_of_fields hop harg

/-- An argument is its byte operand, zero-extended, iff its upper bits are zero (R74). -/
theorem eq_setWidth_byteOperand_iff (arg : Word32) :
    arg = (byteOperand arg).setWidth 32 ↔ byteRest arg = 0#24 := by
  constructor
  · intro h
    rw [h, byteRest_setWidth]
  · intro h
    exact (setWidth_byteOperand h).symm

/-- A word that no branch of R77 accepts. -/
theorem decode_eq_none_iff (w : CmdWord) :
    decode w = none ↔ opField w ≠ 0x01#8 ∧
      (opField w = 0x03#8 → byteRest (argField w) ≠ 0#24) ∧
      (opField w = 0x04#8 → byteRest (argField w) ≠ 0#24) ∧
      (opField w = 0x02#8 → argField w ≠ 0#32) ∧ (opField w = 0x05#8 → argField w ≠ 0#32) ∧
      (opField w = 0x06#8 → argField w ≠ 0#32) ∧ (opField w = 0x07#8 → argField w ≠ 0#32) := by
  simp [decode, ite_eq_iff]

/-! ### O3: the rows of the table -/

/-- Settles O3: a row's mask and match fix the fields that its command's word has. -/
theorem tableRowsDecode : Obligations.TableRowsDecode := by
  intro w
  have hbyte (op : BitVec 8) : w &&& 0xFFFFFFFF00#40 = cmdWord op 0#32 ↔
      cmdWord op ((byteOperand (argField w)).setWidth 32) = w := by
    rw [cmdWord_eq_iff, eq_setWidth_byteOperand_iff]
    exact and_byteMask_eq_iff op w
  have hword (op : BitVec 8) : w &&& 0xFFFFFFFFFF#40 = cmdWord op 0#32 ↔ cmdWord op 0#32 = w := by
    rw [cmdWord_eq_iff]
    exact and_wordMask_eq_iff op w
  have hconfig : w &&& 0xFF00000000#40 = cmdWord 0x01#8 0#32 ↔ cmdWord 0x01#8 (argField w) = w := by
    rw [cmdWord_eq_iff, and_iff_left rfl]
    exact and_opMask_eq_iff 0x01#8 w
  simp only [decode_eq_some_iff, ← byteOperand_argField]
  exact ⟨hconfig, hword 0x02#8, hbyte 0x03#8, hbyte 0x04#8, hword 0x05#8, hword 0x06#8,
    hword 0x07#8⟩

/-! ### O4: the illegal words -/

/-- No row of the table matches a word iff no branch of R77 accepts it (R72, R76). -/
theorem decode_eq_none_iff_no_row (w : CmdWord) :
    decode w = none ↔ ∀ r ∈ opcodeTable, w &&& r.mask ≠ r.pattern := by
  simp only [decode_eq_none_iff, Laws.Encoding.opcodeTable_eq, List.forall_mem_cons, ne_eq,
    and_opMask_eq_iff, and_byteMask_eq_iff, and_wordMask_eq_iff, not_and, List.not_mem_nil,
    false_imp_iff, implies_true, and_true]
  tauto

/-- An opcode outside the table is 0x00 or in 0x08 to 0xFF (R76). -/
theorem reserved_opcode_iff (op : BitVec 8) :
    op = 0x00#8 ∨ 0x08#8 ≤ op ↔
      op ∉ [0x01#8, 0x02#8, 0x03#8, 0x04#8, 0x05#8, 0x06#8, 0x07#8] := by
  revert op
  decide

/-- The two cases of R76: the opcode is reserved, or its command's argument has a bit set that must
be zero. -/
theorem decode_eq_none_iff_fields (w : CmdWord) :
    decode w = none ↔ opField w = 0x00#8 ∨ 0x08#8 ≤ opField w ∨
      (opField w ∈ [0x02#8, 0x05#8, 0x06#8, 0x07#8] ∧ argField w ≠ 0#32) ∨
      (opField w ∈ [0x03#8, 0x04#8] ∧ byteRest (argField w) ≠ 0#24) := by
  rw [decode_eq_none_iff, ← or_assoc, reserved_opcode_iff]
  by_cases hop : opField w ∈ [0x01#8, 0x02#8, 0x03#8, 0x04#8, 0x05#8, 0x06#8, 0x07#8]
  · simp only [List.mem_cons, List.not_mem_nil, or_false] at hop
    obtain h | h | h | h | h | h | h := hop <;> simp [h]
  · refine iff_of_true ?_ (.inl hop)
    simp only [List.mem_cons, List.not_mem_nil, or_false, not_or] at hop
    simp [hop]

end Sys2Proof

namespace Sys2Proof.Machine

theorem issueWord_of_decode_none {w : CmdWord} (h : decode w = none) (s : State) :
    issueWord w s = execIllegal w s := by
  rw [issueWord, h]

/-- Settles O4: both readings of R76 say that no branch of R77 accepts the word's fields, and such a
word is issued to `execIllegal` in every state. -/
theorem illegalWordsChangeNothing : Obligations.IllegalWordsChangeNothing := by
  intro w
  refine ⟨decode_eq_none_iff_no_row w, ?_, fun h s => issueWord_of_decode_none h s⟩
  rw [← byteRest_argField]
  exact decode_eq_none_iff_fields w

end Sys2Proof.Machine

/-! SUPPORT and PROOFS. The two results the calculator can give and the rounding `halve` of a small
quotient (R101 to R108), and the three statements on them: O51 (the clamp), O52 (the definition) and
O57 (divisor 0 for a quotient below 3). -/

namespace Sys2Proof.Machine

/-! ### The two results of the calculator (R103, R104) -/

/-- The fallback test as R103 words it. -/
theorem fallback_iff (f bc : Nat) (d2 : Int) :
    fallback f bc d2 = true ↔ d2 > 4095 ∨ (bc = 57600 ∧ f = 16000000) := by
  simp [fallback]

/-- The calculator with the fallback test as a proposition. -/
theorem baudCalc_eq (arith : CalcArith) (f b : Nat) :
    baudCalc arith f b =
      if halve arith (quotient4 f (clampBaud b)) > 4095 ∨ (clampBaud b = 57600 ∧ f = 16000000) then
        (halve arith (quotient8 f (clampBaud b)), false)
      else (halve arith (quotient4 f (clampBaud b)), true) := by
  simp only [baudCalc, fallback_iff]

/-- Every result of the calculator is the fallback divisor with the flag 0, or, where `d2` fits the
register, `d2` with the flag 1. -/
theorem baudCalc_cases (arith : CalcArith) (f b : Nat) :
    baudCalc arith f b = (halve arith (quotient8 f (clampBaud b)), false) ∨
    (halve arith (quotient4 f (clampBaud b)) ≤ 4095 ∧
      baudCalc arith f b = (halve arith (quotient4 f (clampBaud b)), true)) := by
  rw [baudCalc_eq]
  split_ifs with hfallback
  · exact .inl rfl
  · exact .inr ⟨not_lt.mp fun hbig => hfallback (.inl hbig), rfl⟩

/-- The calculator reads the request only through the clamp (R101). -/
theorem baudCalc_eq_of_clampBaud_eq {b b' : Nat} (h : clampBaud b = clampBaud b')
    (arith : CalcArith) (f : Nat) : baudCalc arith f b = baudCalc arith f b' := by
  rw [baudCalc_eq, baudCalc_eq, h]

/-! ### The rounding (R102, R108) -/

theorem halve_ideal_nonneg (q : Nat) : 0 ≤ halve .ideal q := by
  rw [halve_ideal]
  exact Int.natCast_nonneg _

/-- A quotient below 3, 0 included, gives the divisor 0 (R108). -/
theorem halve_ideal_of_lt_three {q : Nat} (h : q < 3) : halve .ideal q = 0 := by
  have hzero : (q - 1) / 2 = 0 := by omega
  rw [halve_ideal, hzero, Nat.cast_zero]

/-- The special case of R103 has the quotient 69, so no quotient below 3 meets it. -/
theorem not_special_of_quotient4_lt_three {f bc : Nat} (h : quotient4 f bc < 3) :
    ¬ (bc = 57600 ∧ f = 16000000) := by
  rintro ⟨rfl, rfl⟩
  exact absurd h (by decide)

/-! ### O51, O52 and O57 -/

/-- Settles O51: 300 is the clamped rate of every request below 300, and of 300 itself. -/
theorem ratesBelow300Clamp : Obligations.RatesBelow300Clamp := by
  refine ⟨fun b => rfl, clampBaud_ge, fun arith f b hb => ?_⟩
  have hclamp : clampBaud b = clampBaud 300 := by
    rw [clampBaud_of_lt hb, clampBaud_of_ge le_rfl]
  exact baudCalc_eq_of_clampBaud_eq hclamp arith f

/-- Settles O52: the pseudocode is the calculator's equation written out; both divisors are
`halve .ideal` of a quotient, and the flag 1 is given only to one that passed the range test. -/
theorem baudCalcDefinition : Obligations.BaudCalcDefinition := by
  intro f b
  refine ⟨baudCalc_eq .ideal f b, ?_, fun hdouble => ?_⟩
  · obtain h | ⟨-, h⟩ := baudCalc_cases .ideal f b <;> simp [h, halve_ideal_nonneg]
  · obtain h | ⟨hfits, h⟩ := baudCalc_cases .ideal f b
    · simp [h] at hdouble
    · rw [h]
      exact hfits

/-- Settles O57: `d2` is 0, and neither half of the fallback test holds. -/
theorem highRatesGiveZero : Obligations.HighRatesGiveZero := by
  intro f b hq
  have hd2 := halve_ideal_of_lt_three hq
  have hstays : ¬ (halve .ideal (quotient4 f (clampBaud b)) > 4095 ∨
      (clampBaud b = 57600 ∧ f = 16000000)) := by
    rintro (hbig | hspecial)
    · simp [hd2] at hbig
    · exact not_special_of_quotient4_lt_three hq hspecial
  rw [baudCalc_eq, if_neg hstays, hd2]

end Sys2Proof.Machine

/-! SUPPORT and PROOFS. An abort leaves nothing pending, so a second one has no effect (R122), and the
two statements of the control commands on it and on `TXC`: O14 (the abort) and O17 (POLLTXC). -/

namespace Sys2Proof.Machine

/-! ### O14: the abort -/

/-- An abort leaves nothing pending (R122). -/
@[simp] theorem abortPending_not_pending (code : FaultRecord) (s : State) :
    (abortPending code s).pending = false := by
  simp [not_pending_iff]

/-- After an abort another one finds nothing to discard, so it records no fault. -/
theorem abortPending_abortPending (code code' : FaultRecord) (s : State) :
    abortPending code (abortPending code' s) = abortPending code' s :=
  abortPending_idle code _ (abortPending_not_pending code' s)

/-- A pending byte is never complete: `TXC = 0` (I2 of R36). -/
theorem State.Inv.txc_of_pending {s : State} (hs : s.Inv) (hp : s.pending = true) :
    s.status.txc = false := by
  cases htxc : s.status.txc with
  | false => rfl
  | true => exact absurd hp (by simp [hs.completeIdle htxc])

/-- Settles O14: both commands abort first, and a second abort has no effect; `TXC` is kept, and the
invariant makes it 0 while a byte is pending. -/
theorem abortDiscardsPending : Obligations.AbortDiscardsPending := by
  refine ⟨fun code s hp => ?_, fun code s hbusy hudre => ?_, fun code s hs hp => ?_,
    fun b s => ?_, fun s => ?_⟩
  · rw [abortPending_pending code s ((pending_iff s).2 hp)]
    cases hbusy : s.status.busy <;> simp [abortStatus]
  · exact abortPending_idle code s ((not_pending_iff s).2 ⟨hbusy, hudre⟩)
  · rw [abortPending_status]
    exact hs.txc_of_pending ((pending_iff s).2 hp)
  · rw [exec_config, exec_config, abortPending_params, abortPending_abortPending]
  · rw [exec_endCmd, exec_endCmd, abortPending_abortPending]

/-! ### O17: POLLTXC -/

/-- Settles O17: POLLTXC reads no flag but `TXC`, and END's abort keeps it. -/
theorem polltxcResult : Obligations.PolltxcResult := by
  refine ⟨fun s => ?_, fun s t h => ?_⟩
  · rw [exec_polltxc, flagResponse_eq]
    rfl
  · rw [exec_endCmd] at h
    cases h
    simp

end Sys2Proof.Machine

/-! PROOFS. The statement on a TXRAW that is not accepted: O23 (R144). -/

namespace Sys2Proof.Machine

/-- Settles O23: the three flags are `READY`, so TXRAW takes its discarding branch, which records the
fault and responds and writes no other field. -/
theorem txrawDiscarded : Obligations.TxrawDiscarded := by
  intro s d hflags
  have hnotReady : ¬ s.ready = true := fun hready => hflags ((ready_iff s).1 hready)
  rw [exec_txraw, if_neg hnotReady]
  rfl

end Sys2Proof.Machine

/-! SUPPORT and PROOFS. The engine's move by the step that is enabled, one equation per row of R151
and per branch of R153, and the three statements on it: O26 (which step is enabled), O27 (LOAD) and
O28 (FRAME_DONE). -/

namespace Sys2Proof.Machine

/-! ### At most one step is enabled (R151) -/

/-- LOAD and FRAME_DONE differ on `BUSY`. -/
theorem loadEnabled_eq_false_of_frameDoneEnabled {s : State} (hdone : s.frameDoneEnabled = true) :
    s.loadEnabled = false := by
  obtain ⟨-, hbusy⟩ := (frameDoneEnabled_iff s).1 hdone
  simp [State.loadEnabled, hbusy]

theorem engineEnabled_eq_false_iff (s : State) :
    s.engineEnabled = false ↔ s.loadEnabled = false ∧ s.frameDoneEnabled = false := by
  simp [State.engineEnabled]

/-! ### The engine's move by the enabled step (R151 to R153) -/

theorem engineMove_of_loadEnabled {s : State} (hload : s.loadEnabled = true) :
    engineMove s = load s :=
  if_pos hload

theorem engineMove_of_frameDoneEnabled {s : State} (hdone : s.frameDoneEnabled = true) :
    engineMove s = frameDone s := by
  simp [engineMove, loadEnabled_eq_false_of_frameDoneEnabled hdone, hdone]

/-- An idle engine takes no step (R151). -/
theorem engineMove_of_idle {s : State} (hidle : s.engineEnabled = false) : engineMove s = s := by
  obtain ⟨hload, hdone⟩ := (engineEnabled_eq_false_iff s).1 hidle
  simp [engineMove, hload, hdone]

/-- The mover is an enabled agent, so it is not an idle engine (R156). -/
theorem mover_ne_engine_of_idle {s : State} (hidle : s.engineEnabled = false) :
    s.mover ≠ some .engine := by
  obtain ⟨hmover, -⟩ | ⟨-, henabled⟩ | ⟨hmover, -⟩ := mover_cases s
  · simp [hmover]
  · simp [hidle] at henabled
  · simp [hmover]

/-- FRAME_DONE with a byte waiting: the next frame starts at once (R153). -/
theorem frameDone_of_waiting {s : State} (hudre : s.status.udre = false) :
    frameDone s = { s with
      wire := s.wire ++ [s.frameOf s.shift]
      shift := s.txdata
      status := reloadStatus s.status } := by
  rw [frameDone, hudre]
  rfl

/-- FRAME_DONE with none waiting: transmit complete (R153). -/
theorem frameDone_of_drained {s : State} (hudre : s.status.udre = true) :
    frameDone s = { s with
      wire := s.wire ++ [s.frameOf s.shift]
      status := drainStatus s.status } := by
  rw [frameDone, hudre]
  rfl

/-- LOAD frees the buffer of an enabled block, so it makes the block ready (R28, R152). -/
theorem load_ready {s : State} (henabled : s.enabled = true) : (load s).ready = true := by
  obtain ⟨hpwr, htxen⟩ := (enabled_iff s).1 henabled
  exact (ready_iff _).2 ⟨hpwr, htxen, rfl⟩

/-! ### O26, O27 and O28 -/

/-- Settles O26: the table of R151 is the two conditions with `enabled` written out in flags. -/
theorem engineStepsEnabled : Obligations.EngineStepsEnabled := by
  intro s
  refine ⟨?_, ?_, fun ⟨hload, hdone⟩ => ?_, fun hload hdone => ?_⟩
  · rw [loadEnabled_iff, enabled_iff, and_assoc]
  · rw [frameDoneEnabled_iff, enabled_iff, and_assoc]
  · exact absurd hload (by simp [loadEnabled_eq_false_of_frameDoneEnabled hdone])
  · have hidle : s.engineEnabled = false := (engineEnabled_eq_false_iff s).2 ⟨hload, hdone⟩
    exact ⟨engineMove_of_idle hidle, mover_ne_engine_of_idle hidle⟩

/-- Settles O27: the move is `load`, whose flag write is that of R152. -/
theorem loadStartsFrame : Obligations.LoadStartsFrame := by
  intro s hload
  obtain ⟨henabled, -, -⟩ := (loadEnabled_iff s).1 hload
  rw [engineMove_of_loadEnabled hload]
  exact ⟨rfl, load_ready henabled⟩

/-- Settles O28: the move is `frameDone`, and `UDRE` selects its branch. -/
theorem frameDoneSendsFrame : Obligations.FrameDoneSendsFrame := by
  intro s hdone
  rw [engineMove_of_frameDoneEnabled hdone]
  exact ⟨frameDone_of_waiting, frameDone_of_drained⟩

end Sys2Proof.Machine

/-! SUPPORT and PROOFS. A block that is powered down is not enabled, and the engine of such a block is
idle (R151), and the statement on the two power states: O40 (R183). -/

namespace Sys2Proof.Machine

/-- The engine is idle while the block is not enabled (R151, R154). -/
theorem engineEnabled_eq_false_of_not_enabled {s : State} (hoff : s.enabled = false) :
    s.engineEnabled = false := by
  rw [engineEnabled_eq, hoff, Bool.false_and]

/-- `PWR` is one of the two enables. -/
theorem enabled_eq_false_of_powered_down {s : State} (hpwr : s.ctrl.pwr = false) :
    s.enabled = false := by
  simp [State.enabled, hpwr]

/-- Settles O40: a block without `PWR` is not enabled, and of the steps that write `CTRL`, END leaves
`PWR` at 0. -/
theorem powerStates : Obligations.PowerStates := by
  refine ⟨rfl, fun s t b h => ?_, fun s t h => ?_, fun s hpwr => ?_, fun s t h hpwr hpwr' => ?_⟩
  · rw [exec_config] at h
    cases h
    simp
  · rw [exec_endCmd] at h
    cases h
    simp
  · have hoff := enabled_eq_false_of_powered_down hpwr
    have hidle := engineEnabled_eq_false_of_not_enabled hoff
    exact ⟨ready_of_not_enabled rfl hoff, engineMove_of_idle hidle, mover_ne_engine_of_idle hidle⟩
  · obtain hconfig | ⟨-, hend, -⟩ | hsame := step_configuration h
    · exact hconfig
    · simp [hend] at hpwr'
    · simp [hsame.ctrl, hpwr] at hpwr'

end Sys2Proof.Machine

/-! SUPPORT and PROOFS. Two states that agree but for a dead `TXDATA` or `SHIFT` (R29, R30) go on
alike: the shared operations and the engine's move, then the commands, the step and the run; and the
statement on the reset state: O48 (R190). -/

namespace Sys2Proof.Machine

/-! ### Agreement on the live registers -/

/-- Agreement as an overwriting of the dead registers. -/
theorem agreeOnLive_iff (s s' : State) :
    s.agreeOnLive s' ↔ ∃ x y, s' = { s with txdata := x, shift := y } ∧
      (s.status.udre = false → x = s.txdata) ∧ (s.status.busy = true → y = s.shift) := by
  constructor
  · intro ⟨heq, htxdata, hshift⟩
    exact ⟨s'.txdata, s'.shift, heq, htxdata, hshift⟩
  · rintro ⟨x, y, rfl, htxdata, hshift⟩
    exact ⟨rfl, htxdata, hshift⟩

theorem agreeOnLive_refl (s : State) : s.agreeOnLive s := ⟨rfl, fun _ => rfl, fun _ => rfl⟩

/-- With nothing pending both registers are dead. -/
theorem agreeOnLive_of_not_pending {s : State} (hp : s.pending = false) (x y : Byte) :
    s.agreeOnLive { s with txdata := x, shift := y } := by
  obtain ⟨hbusy, hudre⟩ := (not_pending_iff s).1 hp
  exact ⟨rfl, by simp [hudre], by simp [hbusy]⟩

/-- What does not read `TXDATA` or `SHIFT` is the same of both states. -/
theorem eq_of_agreeOnLive {α : Type} {s s' : State} (h : s.agreeOnLive s') (g : State → α)
    (hg : ∀ x y, g { s with txdata := x, shift := y } = g s) : g s' = g s := by
  obtain ⟨x, y, rfl, -⟩ := (agreeOnLive_iff s s').1 h
  exact hg x y

/-! ### The operations and the engine keep the agreement -/

section operations

variable {s s' : State} (h : s.agreeOnLive s')

include h

/-- An operation that neither reads nor writes `TXDATA` and `SHIFT`, and writes no flag. -/
theorem map_agreeOnLive (f : State → State)
    (hf : ∀ x y, f { s with txdata := x, shift := y } = { f s with txdata := x, shift := y })
    (hstatus : (f s).status = s.status) : (f s).agreeOnLive (f s') := by
  obtain ⟨x, y, rfl, hx, hy⟩ := (agreeOnLive_iff s s').1 h
  have htxdata : (f s).txdata = s.txdata := congrArg (·.txdata) (hf s.txdata s.shift)
  have hshift : (f s).shift = s.shift := congrArg (·.shift) (hf s.txdata s.shift)
  refine (agreeOnLive_iff _ _).2 ⟨x, y, hf x y, ?_, ?_⟩
  · rwa [hstatus, htxdata]
  · rwa [hstatus, hshift]

theorem respond_agreeOnLive (r : Word32) : (respond r s).agreeOnLive (respond r s') :=
  map_agreeOnLive h (respond r) (fun _ _ => rfl) rfl

/-- The accepted byte overwrites `TXDATA`. -/
theorem accept_agreeOnLive (d : Byte) : (accept d s).agreeOnLive (accept d s') := by
  obtain ⟨x, y, rfl, -, hshift⟩ := (agreeOnLive_iff s s').1 h
  exact ⟨rfl, fun _ => rfl, hshift⟩

/-- An abort reads `SHIFT` only while `BUSY = 1`, and leaves both registers dead. -/
theorem abortPending_agreeOnLive (code : FaultRecord) :
    (abortPending code s).agreeOnLive (abortPending code s') := by
  obtain ⟨x, y, rfl, -, hshift⟩ := (agreeOnLive_iff s s').1 h
  have hcut : (if s.status.busy then [WireEvent.aborted y] else []) =
      if s.status.busy then [.aborted s.shift] else [] := by
    split
    case isTrue hbusy => rw [hshift hbusy]
    case isFalse => rfl
  have heq : abortPending code { s with txdata := x, shift := y } =
      { abortPending code s with txdata := x, shift := y } := by
    rw [abortPending_eq, abortPending_eq, hcut]
    rfl
  rw [heq]
  exact agreeOnLive_of_not_pending (abortPending_not_pending code s) x y

/-- LOAD moves a live `TXDATA` to `SHIFT`. -/
theorem load_agreeOnLive (hudre : s.status.udre = false) : (load s).agreeOnLive (load s') := by
  obtain ⟨x, y, rfl, htxdata, -⟩ := (agreeOnLive_iff s s').1 h
  exact ⟨rfl, by simp, fun _ => htxdata hudre⟩

/-- FRAME_DONE sends a live `SHIFT`, and reloads it only from a live `TXDATA`. -/
theorem frameDone_agreeOnLive (hbusy : s.status.busy = true) :
    (frameDone s).agreeOnLive (frameDone s') := by
  obtain ⟨x, y, rfl, htxdata, hshift⟩ := (agreeOnLive_iff s s').1 h
  obtain rfl := hshift hbusy
  cases hudre : s.status.udre with
  | false =>
    obtain rfl := htxdata hudre
    exact agreeOnLive_refl _
  | true =>
    have hudre' : ({ s with txdata := x } : State).status.udre = true := hudre
    rw [frameDone_of_drained hudre, frameDone_of_drained hudre']
    exact ⟨rfl, by simp [hudre], fun _ => rfl⟩

theorem engineMove_agreeOnLive : (engineMove s).agreeOnLive (engineMove s') := by
  have hload' : s'.loadEnabled = s.loadEnabled := eq_of_agreeOnLive h _ fun _ _ => rfl
  have hdone' : s'.frameDoneEnabled = s.frameDoneEnabled := eq_of_agreeOnLive h _ fun _ _ => rfl
  rw [engineMove, engineMove, hload', hdone']
  split
  case isTrue hload =>
    obtain ⟨-, hudre, -⟩ := (loadEnabled_iff s).1 hload
    exact load_agreeOnLive h hudre
  case isFalse =>
    split
    case isTrue hdone => exact frameDone_agreeOnLive h ((frameDoneEnabled_iff s).1 hdone).2
    case isFalse => exact h

end operations

/-! ### The commands, the step and the run -/

/-- Both answers are a next state, and the two states agree on the live registers. -/
def AnswersAgree (a a' : Answer) : Prop :=
  ∃ t t', a = .next t ∧ a' = .next t' ∧ t.agreeOnLive t'

theorem answersAgree_next {t t' : State} (h : t.agreeOnLive t') :
    AnswersAgree (.next t) (.next t') :=
  ⟨t, t', rfl, rfl, h⟩

section moves

variable {s s' : State} (h : s.agreeOnLive s')

include h

/-- A command held in both states or in neither. -/
theorem holdWhile_answersAgree (c : Bool) {k : State → State} (hk : (k s).agreeOnLive (k s')) :
    AnswersAgree (holdWhile c k s) (holdWhile c k s') := by
  cases c with
  | true => exact answersAgree_next h
  | false => exact answersAgree_next hk

theorem exec_answersAgree (i : Instr) : AnswersAgree (exec i s) (exec i s') := by
  have hready : s'.ready = s.ready := eq_of_agreeOnLive h _ fun _ _ => rfl
  have hstatus : s'.status = s.status := eq_of_agreeOnLive h _ fun _ _ => rfl
  have hparams : s'.params = s.params := eq_of_agreeOnLive h _ fun _ _ => rfl
  cases i with
  | config b =>
    rw [exec_config, exec_config, hparams]
    have hwrite := map_agreeOnLive (abortPending_agreeOnLive h .configWhilePending)
      (writeConfig (programmed s.params b)) (fun _ _ => rfl) rfl
    exact answersAgree_next (respond_agreeOnLive hwrite _)
  | endCmd =>
    have hwrite := map_agreeOnLive (abortPending_agreeOnLive h .endWhilePending)
      writeEnd (fun _ _ => rfl) rfl
    exact answersAgree_next (respond_agreeOnLive hwrite _)
  | txbyte d =>
    rw [exec_txbyte, exec_txbyte, hready]
    exact holdWhile_answersAgree h _ (respond_agreeOnLive (accept_agreeOnLive h d) _)
  | txraw d =>
    rw [exec_txraw, exec_txraw, hready]
    refine answersAgree_next (respond_agreeOnLive ?_ _)
    split
    · exact accept_agreeOnLive h d
    · exact map_agreeOnLive h (raise _) (fun _ _ => rfl) rfl
  | pollrdy =>
    rw [exec_pollrdy, exec_pollrdy, hready]
    exact answersAgree_next (respond_agreeOnLive h _)
  | polltxc =>
    rw [exec_polltxc, exec_polltxc, hstatus]
    exact answersAgree_next (respond_agreeOnLive h _)
  | flush =>
    rw [exec_flush, exec_flush, hstatus]
    exact holdWhile_answersAgree h _ (respond_agreeOnLive h _)

theorem issueWord_answersAgree (w : CmdWord) :
    AnswersAgree (issueWord w s) (issueWord w s') := by
  rw [issueWord, issueWord]
  cases decode w with
  | some i => exact exec_answersAgree h i
  | none =>
    have hraise := map_agreeOnLive h (raise (.illegalCommand w)) (fun _ _ => rfl) rfl
    exact answersAgree_next (respond_agreeOnLive hraise _)

/-- The host's line and the response a branch reads are the same in both states. -/
theorem hostMove_answersAgree : AnswersAgree (hostMove s) (hostMove s') := by
  have hline : s'.currentLine = s.currentLine := eq_of_agreeOnLive h _ fun _ _ => rfl
  have hgoto (pc : State → Nat) (hpc : ∀ x y, pc { s with txdata := x, shift := y } = pc s) :
      AnswersAgree (.next { s with hostPc := pc s }) (.next { s' with hostPc := pc s' }) := by
    rw [eq_of_agreeOnLive h pc hpc]
    exact answersAgree_next
      (map_agreeOnLive h (fun r => { r with hostPc := pc s }) (fun _ _ => rfl) rfl)
  rw [hostMove, hostMove, hline]
  split
  case h_1 w _ => exact issueWord_answersAgree h w
  case h_2 n _ =>
    exact hgoto (fun r => if r.lastResp.getLsbD 0 then r.hostPc + 1 else n) fun _ _ => rfl
  case h_3 n _ => exact hgoto (fun _ => n) fun _ _ => rfl
  case h_4 => exact answersAgree_next h
  case h_5 => exact answersAgree_next h

theorem moveOf_answersAgree (a : Agent) : AnswersAgree (moveOf a s) (moveOf a s') := by
  cases a with
  | host => exact hostMove_answersAgree h
  | engine => exact answersAgree_next (engineMove_agreeOnLive h)

/-- The same agent moves in both states. -/
theorem step_answersAgree : AnswersAgree (step s) (step s') := by
  have hmover : s'.mover = s.mover := eq_of_agreeOnLive h _ fun _ _ => rfl
  rw [step, step, hmover]
  cases s.mover with
  | some a =>
    exact moveOf_answersAgree (map_agreeOnLive h State.spend (fun _ _ => rfl) rfl) a
  | none => exact answersAgree_next h

end moves

theorem run_succ_of_step {M : Host.Core} {s t : M.State} (h : M.step s = .next t) (k : Nat) :
    M.run (k + 1) s = M.run k t := by
  rw [Host.Core.run, h]

theorem run_answersAgree {s s' : State} (h : s.agreeOnLive s') (k : Nat) :
    AnswersAgree (Host.Core.run core k s) (Host.Core.run core k s') := by
  induction k generalizing s s' with
  | zero => exact answersAgree_next h
  | succ k ih =>
    obtain ⟨t, t', ht, ht', hagree⟩ := step_answersAgree h
    obtain ⟨u, u', hu, hu', hagree'⟩ := ih hagree
    exact ⟨u, u', (run_succ_of_step ht k).trans hu, (run_succ_of_step ht' k).trans hu', hagree'⟩

/-! ### O48: the reset state -/

/-- Settles O48: nothing is pending at reset, so `TXDATA` and `SHIFT` are dead there, and runs from
states that agree on the live registers end in states that do. -/
theorem resetState : Obligations.ResetState := by
  refine ⟨by decide, rfl, rfl, rfl, rfl, by decide, rfl, rfl, rfl, rfl,
    fun x y s t k hreset hrun => ?_⟩
  have hidle : s.pending = false := by rw [hreset]; rfl
  obtain ⟨u, t', hu, ht', hagree⟩ := run_answersAgree (agreeOnLive_of_not_pending hidle x y) k
  obtain rfl : t = u := Host.Outcome.next.inj (hrun.symm.trans hu)
  exact ⟨t', ht', eq_of_agreeOnLive hagree State.resps fun _ _ => rfl,
    eq_of_agreeOnLive hagree State.wire fun _ _ => rfl,
    eq_of_agreeOnLive hagree State.faultLog fun _ _ => rfl,
    eq_of_agreeOnLive hagree State.runEnd fun _ _ => rfl⟩

end Sys2Proof.Machine

/-! SUPPORT. What a command does once nothing holds it, and everything a step can lead to with the agent
that moves named, for the proofs that follow a command or a step through the whole machine. -/

namespace Sys2Proof.Machine

/-! ### What a command that is not held does -/

/-- The state a command leads to when it completes. -/
def effect : Instr → State → State
  | .config b, s => respond zeroResponse
      (writeConfig (programmed s.params b) (abortPending .configWhilePending s))
  | .endCmd, s => respond zeroResponse (writeEnd (abortPending .endWhilePending s))
  | .txbyte d, s => respond zeroResponse (accept d s)
  | .txraw d, s => respond zeroResponse (if s.ready then accept d s else raise (.txNotReady d) s)
  | .pollrdy, s => respond (flagResponse s.ready) s
  | .polltxc, s => respond (flagResponse s.status.txc) s
  | .flush, s => respond zeroResponse s

/-- A command leaves the state as it is while it is held, and completes otherwise (R131). -/
theorem exec_eq_effect (i : Instr) (s : State) :
    exec i s = .next (if commandHeld i s then s else effect i s) := by
  cases i <;> rfl

theorem exec_of_held {i : Instr} {s : State} (hheld : commandHeld i s = true) :
    exec i s = .next s := by
  rw [exec_eq_effect, if_pos hheld]

theorem exec_of_free {i : Instr} {s : State} (hfree : commandHeld i s = false) :
    exec i s = .next (effect i s) := by
  rw [exec_eq_effect, hfree]
  rfl

/-- A ready block is powered and its transmitter enabled (R28). -/
theorem enabled_of_ready {s : State} (hready : s.ready = true) : s.enabled = true := by
  rw [ready_eq, Bool.and_eq_true] at hready
  exact hready.1

/-- The commands that can be held, and while what (R130, R140). -/
theorem commandHeld_iff (i : Instr) (s : State) :
    commandHeld i s = true ↔
      (∃ d, i = .txbyte d ∧ s.ready = false) ∨ (i = .flush ∧ s.status.txc = false) := by
  cases i <;> simp [commandHeld, txbyteHeld, flushHeld]

/-! ### The host at a command -/

@[simp] theorem spend_issuing (s : State) : s.spend.issuing = s.issuing := rfl

@[simp] theorem commandHeld_spend (i : Instr) (s : State) :
    commandHeld i s.spend = commandHeld i s := by
  cases i <;> rfl

/-- The host is at a command exactly when its line issues that command's word (R11, R77). -/
theorem issuing_eq_some_iff (s : State) (i : Instr) :
    s.issuing = some i ↔ ∃ w, s.currentLine = some (.issue w) ∧ decode w = some i := by
  unfold State.issuing
  split <;> simp [*]

/-- At a branch, at `HALT` or past its last line the host issues nothing. -/
theorem issuing_of_not_issue {s : State} (h : ∀ w, s.currentLine ≠ some (.issue w)) :
    s.issuing = none := by
  unfold State.issuing
  split <;> simp_all

section issuing

variable {s : State} {i : Instr} (hissuing : s.issuing = some i)

include hissuing

theorem hostHeld_of_issuing : s.hostHeld = commandHeld i s := by
  obtain ⟨w, hline, hdecode⟩ := (issuing_eq_some_iff s i).1 hissuing
  simp [State.hostHeld, hline, hdecode]

/-- A host at a command is enabled unless the command is held (R131, R156). -/
theorem hostEnabled_of_issuing : s.hostEnabled = !commandHeld i s := by
  obtain ⟨w, hline, -⟩ := (issuing_eq_some_iff s i).1 hissuing
  simp [State.hostEnabled, hostHeld_of_issuing hissuing, State.halted, hline]

theorem hostMove_of_issuing : hostMove s = exec i s := by
  obtain ⟨w, hline, hdecode⟩ := (issuing_eq_some_iff s i).1 hissuing
  simp [hostMove, hline, issueWord, hdecode]

end issuing

/-! ### Who moves -/

/-- The mover is an enabled agent, so it is not a host that is held or at `HALT` (R156). -/
theorem mover_ne_host_of_not_enabled {s : State} (hhost : s.hostEnabled = false) :
    s.mover ≠ some .host := by
  obtain ⟨-, henabled⟩ | ⟨hmover, -⟩ | ⟨hmover, -⟩ := mover_cases s
  · simp [hhost] at henabled
  · simp [hmover]
  · simp [hmover]

theorem hostEnabled_of_mover {s : State} (hmover : s.mover = some .host) :
    s.hostEnabled = true := by
  obtain ⟨-, henabled⟩ | ⟨hother, -⟩ | ⟨hother, -⟩ := mover_cases s
  · exact henabled
  · simp [hmover] at hother
  · simp [hmover] at hother

theorem step_of_mover_host {s : State} (hmover : s.mover = some .host) :
    step s = hostMove s.spend := by
  rw [step, hmover]
  rfl

theorem step_of_mover_engine {s : State} (hmover : s.mover = some .engine) :
    step s = .next (engineMove s.spend) := by
  rw [step, hmover]
  rfl

theorem step_of_mover_none {s : State} (hmover : s.mover = none) : step s = .next s := by
  rw [step, hmover]

/-! ### Everything a step can lead to -/

/-- Where a step from a state can lead, with the agent that moves and what the host issues. -/
inductive StepTo (s : State) : State → Prop where
  | command (i : Instr) (hmover : s.mover = some .host) (hissuing : s.issuing = some i)
      (hfree : commandHeld i s = false) : StepTo s (effect i s.spend)
  | illegal (w : CmdWord) (hmover : s.mover = some .host) (hissuing : s.issuing = none) :
      StepTo s (respond zeroResponse (raise (.illegalCommand w) s.spend))
  | branch (n : Nat) (hmover : s.mover = some .host) (hissuing : s.issuing = none) :
      StepTo s { s.spend with hostPc := n }
  | engine (hmover : s.mover = some .engine) (henabled : s.engineEnabled = true) :
      StepTo s (engineMove s.spend)
  | stuck (hmover : s.mover = none) : StepTo s s

theorem stepTo_of_mover_host {s t : State} (hmover : s.mover = some .host)
    (h : step s = .next t) : StepTo s t := by
  have henabled := hostEnabled_of_mover hmover
  rw [step_of_mover_host hmover] at h
  obtain ⟨w, hline, hmove⟩ | ⟨n, hline, hmove⟩ | ⟨hhalted, -⟩ := hostMove_cases s.spend
  · rw [spend_currentLine] at hline
    rw [hmove] at h
    obtain ⟨i, hdecode, hexec⟩ | ⟨hdecode, hexec⟩ := issueWord_cases w s.spend <;> rw [hexec] at h
    · have hissuing : s.issuing = some i := (issuing_of_issue hline).trans hdecode
      have hfree : commandHeld i s = false := by
        simpa [hostEnabled_of_issuing hissuing] using henabled
      rw [exec_of_free (by simpa using hfree)] at h
      cases h
      exact .command i hmover hissuing hfree
    · cases h
      exact .illegal w hmover ((issuing_of_issue hline).trans hdecode)
  · rw [hmove] at h
    cases h
    refine .branch n hmover (issuing_of_not_issue ?_)
    obtain ⟨k, hline⟩ | ⟨k, hline⟩ := hline <;> rw [spend_currentLine] at hline <;> simp [hline]
  · have : s.halted = true := hhalted
    simp [State.hostEnabled, this] at henabled

theorem stepTo_of_step {s t : State} (h : step s = .next t) : StepTo s t := by
  obtain ⟨hmover, -⟩ | ⟨hmover, henabled⟩ | ⟨hmover, -⟩ := mover_cases s
  · exact stepTo_of_mover_host hmover h
  · rw [step_of_mover_engine hmover] at h
    cases h
    exact .engine hmover henabled
  · rw [step_of_mover_none hmover] at h
    cases h
    exact .stuck hmover

end Sys2Proof.Machine

/-! PROOFS. The round trip of decoder and encoder: O2 (R71 to R77). -/

namespace Sys2Proof

/-- Settles O2: the decoder undoes the encoder, and each of its branches fixes both fields of the
word. -/
theorem decodeEncodeAgree : Obligations.DecodeEncodeAgree :=
  ⟨decode_encode, fun _ _ => encode_of_decode⟩

end Sys2Proof

/-! PROOFS. The dead registers: O46 (R29, R30). -/

namespace Sys2Proof.Machine

/-- Settles O46: both states take the same step to states that agree on the live registers, and no
observed field is one of the two registers. -/
theorem deadRegistersUnobservable : Obligations.DeadRegistersUnobservable := by
  intro s s' t hagree h
  obtain ⟨u, t', hu, ht', hagree'⟩ := step_answersAgree hagree
  obtain rfl : t = u := Host.Outcome.next.inj (h.symm.trans hu)
  exact ⟨t', ht', hagree', eq_of_agreeOnLive hagree' State.resps fun _ _ => rfl,
    eq_of_agreeOnLive hagree' State.wire fun _ _ => rfl,
    eq_of_agreeOnLive hagree' State.faultLog fun _ _ => rfl,
    eq_of_agreeOnLive hagree' State.ready fun _ _ => rfl⟩

end Sys2Proof.Machine

/-! SUPPORT and PROOFS. The invariant (R36) under the shared operations, the commands, the engine, the
step and the run, and the statements that rest on it: O33, O34, O35 and O41 (R173). -/

namespace Sys2Proof.Machine

/-! ### The invariant under the shared operations -/

section operations

variable {s : State} (hs : s.Inv)

include hs

/-- The invariant reads only the registers and the wire, and a fault record more does not hurt it. -/
theorem State.Inv.of_sameBlock {t : State} (hctrl : t.ctrl = s.ctrl) (hframe : t.frame = s.frame)
    (hstatus : t.status = s.status) (hwire : t.wire = s.wire) (hfaults : s.faultLog ⊆ t.faultLog) :
    t.Inv where
  pendingEnabled := by
    simpa [State.pending, State.enabled, hctrl, hstatus] using hs.pendingEnabled
  completeIdle := by simpa [State.pending, hstatus] using hs.completeIdle
  frameFormat := hframe.trans hs.frameFormat
  noInterrupts := hctrl ▸ hs.noInterrupts
  wire8N1 := hwire ▸ hs.wire8N1
  abortedFaulted haborted := (hs.abortedFaulted (hwire ▸ haborted)).imp
    (fun h => hfaults h) (fun h => hfaults h)

theorem State.Inv.spend : s.spend.Inv :=
  hs.of_sameBlock rfl rfl rfl rfl (List.Subset.refl _)

theorem State.Inv.respond (r : Word32) : (respond r s).Inv :=
  hs.of_sameBlock rfl rfl rfl rfl (List.Subset.refl _)

theorem State.Inv.raise (r : FaultRecord) : (raise r s).Inv :=
  hs.of_sameBlock rfl rfl rfl rfl (List.subset_append_left _ _)

theorem State.Inv.goto (n : Nat) : ({ s with hostPc := n } : State).Inv :=
  hs.of_sameBlock rfl rfl rfl rfl (List.Subset.refl _)

/-- Acceptance needs an enabled block, and clears `TXC` (R141). -/
theorem State.Inv.accept (d : Byte) (henabled : s.enabled = true) : (accept d s).Inv where
  pendingEnabled _ := henabled
  completeIdle := by simp
  frameFormat := hs.frameFormat
  noInterrupts := hs.noInterrupts
  wire8N1 := hs.wire8N1
  abortedFaulted := hs.abortedFaulted

/-- An abort's `Aborted` event comes with its fault record (R122). -/
theorem State.Inv.abortPending {code : FaultRecord}
    (hcode : code = .configWhilePending ∨ code = .endWhilePending) : (abortPending code s).Inv := by
  cases hpending : s.pending with
  | false => rwa [abortPending_idle code s hpending]
  | true =>
    refine ⟨by simp, fun _ => abortPending_not_pending code s, by simpa using hs.frameFormat,
      by simpa using hs.noInterrupts, fun e he => ?_, fun _ => ?_⟩
    · rw [abortPending_wire, List.mem_append] at he
      obtain hold | hnew := he
      · exact hs.wire8N1 e hold
      · cases hbusy : s.status.busy <;> simp [hbusy] at hnew
        simp [hnew, event8N1]
    · obtain rfl | rfl := hcode <;> simp [hpending]

/-- CONFIG writes its registers when nothing is pending (R120). -/
theorem State.Inv.writeConfig (p : Divisor × Bool) : (writeConfig p s).Inv where
  pendingEnabled _ := rfl
  completeIdle := hs.completeIdle
  frameFormat := rfl
  noInterrupts := ⟨rfl, rfl, rfl⟩
  wire8N1 := hs.wire8N1
  abortedFaulted := hs.abortedFaulted

/-- END powers the block down when nothing is pending (R124). -/
theorem State.Inv.writeEnd (hidle : s.pending = false) : (writeEnd s).Inv where
  pendingEnabled (hpending : s.pending = true) := absurd hpending (by simp [hidle])
  completeIdle := hs.completeIdle
  frameFormat := hs.frameFormat
  noInterrupts := hs.noInterrupts
  wire8N1 := hs.wire8N1
  abortedFaulted := hs.abortedFaulted

/-- LOAD leaves a byte pending, and one is pending before it (R152). -/
theorem State.Inv.load (hload : s.loadEnabled = true) : (load s).Inv := by
  obtain ⟨henabled, hudre, -⟩ := (loadEnabled_iff s).1 hload
  have htxc : s.status.txc = false := hs.txc_of_pending ((pending_iff s).2 (.inr hudre))
  exact ⟨fun _ => henabled, by simp [htxc], hs.frameFormat, hs.noInterrupts, hs.wire8N1,
    hs.abortedFaulted⟩

/-- The frame sent is 8N1, since `FRAME` is 0x08 (R24, R155). -/
theorem State.Inv.wire8N1_append_frame (d : Byte) :
    ∀ e ∈ s.wire ++ [s.frameOf d], event8N1 e = true := by
  intro e he
  rw [List.mem_append, List.mem_singleton] at he
  obtain hold | rfl := he
  · exact hs.wire8N1 e hold
  · simp [State.frameOf, event8N1, hs.frameFormat]

/-- A complete frame is no `Aborted` event. -/
theorem State.Inv.abortedFaulted_append_frame (d : Byte)
    (haborted : ∃ e ∈ s.wire ++ [s.frameOf d], eventAborted e = true) :
    FaultRecord.configWhilePending ∈ s.faultLog ∨ FaultRecord.endWhilePending ∈ s.faultLog := by
  obtain ⟨e, he, habort⟩ := haborted
  rw [List.mem_append, List.mem_singleton] at he
  obtain hold | rfl := he
  · exact hs.abortedFaulted ⟨e, hold, habort⟩
  · simp [State.frameOf, eventAborted] at habort

/-- FRAME_DONE leaves a byte pending and `TXC` at 0, or none pending and sets it (R153). -/
theorem State.Inv.frameDone (hdone : s.frameDoneEnabled = true) : (frameDone s).Inv := by
  obtain ⟨henabled, hbusy⟩ := (frameDoneEnabled_iff s).1 hdone
  have htxc : s.status.txc = false := hs.txc_of_pending ((pending_iff s).2 (.inl hbusy))
  cases hudre : s.status.udre with
  | false =>
    rw [frameDone_of_waiting hudre]
    exact ⟨fun _ => henabled, by simp [htxc], hs.frameFormat, hs.noInterrupts,
      hs.wire8N1_append_frame _, hs.abortedFaulted_append_frame _⟩
  | true =>
    rw [frameDone_of_drained hudre]
    exact ⟨fun _ => henabled, by simp [State.pending, hudre], hs.frameFormat, hs.noInterrupts,
      hs.wire8N1_append_frame _, hs.abortedFaulted_append_frame _⟩

theorem State.Inv.engineMove : (engineMove s).Inv := by
  unfold Machine.engineMove
  split_ifs with hload hdone
  · exact hs.load hload
  · exact hs.frameDone hdone
  · exact hs

theorem State.Inv.effect {i : Instr} (hfree : commandHeld i s = false) : (effect i s).Inv := by
  cases i with
  | config b => exact ((hs.abortPending (.inl rfl)).writeConfig _).respond _
  | endCmd =>
    exact ((hs.abortPending (.inr rfl)).writeEnd (abortPending_not_pending _ s)).respond _
  | txbyte d =>
    have hready : s.ready = true := by simpa [commandHeld, txbyteHeld] using hfree
    exact (hs.accept d (enabled_of_ready hready)).respond _
  | txraw d =>
    refine State.Inv.respond ?_ _
    split_ifs with hready
    · exact hs.accept d (enabled_of_ready hready)
    · exact hs.raise _
  | pollrdy => exact hs.respond _
  | polltxc => exact hs.respond _
  | flush => exact hs.respond _

end operations

/-! ### O33, O34 and O35: the step, the reset state and the run -/

/-- Settles O33: the invariant is kept by the effect of each command and by the engine's move; an
illegal word and a branch leave the block as it is. -/
theorem invariantKept : Obligations.InvariantKept := by
  intro s t hs h
  cases stepTo_of_step h with
  | command i _ _ hfree => exact hs.spend.effect (by simpa using hfree)
  | illegal w => exact (hs.spend.raise _).respond _
  | branch n => exact hs.spend.goto n
  | engine => exact hs.spend.engineMove
  | stuck => exact hs

/-- Settles O34: at reset nothing is pending, no flag but `UDRE` is set and the logs are empty. -/
theorem invariantAtReset : Obligations.InvariantAtReset :=
  ⟨by decide, by decide, rfl, by decide, by decide, by decide⟩

/-- Every step answers a next state. -/
theorem step_answers (s : State) : ∃ t, step s = .next t :=
  let ⟨t, _, h, _⟩ := step_answersAgree (agreeOnLive_refl s)
  ⟨t, h⟩

/-- A property that every step keeps is kept by every run. -/
theorem run_induction {P : State → Prop} (hstep : ∀ s t, P s → step s = .next t → P t) {k : Nat}
    {s t : State} (hs : P s) (hrun : Host.Core.run core k s = .next t) : P t := by
  induction k generalizing s with
  | zero => cases hrun; exact hs
  | succ k ih =>
    obtain ⟨u, hu⟩ := step_answers s
    exact ih (hstep s u hs hu) ((run_succ_of_step (M := core) hu k).symm.trans hrun)

/-- Settles O35: the invariant does not read the parameters, the program or the schedule, so it holds
of every such start, and every run keeps it. -/
theorem pendingOnlyWhileEnabled : Obligations.PendingOnlyWhileEnabled := by
  intro p q params k t hrun
  have hstart : ({ State.reset with params := params, prog := p, sched := q } : State).Inv :=
    invariantAtReset.of_sameBlock rfl rfl rfl rfl (List.Subset.refl _)
  have ht : t.Inv := run_induction invariantKept hstart hrun
  refine ⟨fun hpending => ?_, fun htxc => ?_⟩
  · exact (enabled_iff t).1 (ht.pendingEnabled ((pending_iff t).2 hpending.symm))
  · exact ((not_pending_iff t).1 (ht.completeIdle htxc)).symm

/-! ### O41: the interrupts -/

theorem State.Inv.interruptRequest {s : State} (hs : s.Inv) : s.interruptRequest = false := by
  obtain ⟨htxcie, hudrie, hrxcie⟩ := hs.noInterrupts
  simp [State.interruptRequest, htxcie, hudrie, hrxcie]

/-- The interrupt enables of `t` are among those of `s`. -/
def Ctrl.EnablesWithin (c c' : Ctrl) : Prop :=
  (c'.txcie = true → c.txcie = true) ∧ (c'.udrie = true → c.udrie = true) ∧
    (c'.rxcie = true → c.rxcie = true)

/-- CONFIG clears the enables, and every other command keeps them (R173). -/
theorem exec_enablesWithin {i : Instr} {s t : State} (h : exec i s = .next t) :
    s.ctrl.EnablesWithin t.ctrl := by
  obtain ⟨b, rfl⟩ | ⟨-, hctrl, -⟩ | hsame := exec_configuration h
  · rw [exec_config] at h
    cases h
    simp [Ctrl.EnablesWithin]
  · simp [Ctrl.EnablesWithin, hctrl]
  · simp [Ctrl.EnablesWithin, hsame.ctrl]

/-- Settles O41: no command adds an enable, and under the invariant, which every step keeps, there is
none. -/
theorem interruptsNeverAsserted : Obligations.InterruptsNeverAsserted := by
  refine ⟨fun w s t h => ?_, fun s hs => hs.interruptRequest,
    fun s t hs h => (invariantKept s t hs h).interruptRequest⟩
  obtain ⟨i, -, hexec⟩ | ⟨-, hexec⟩ := issueWord_cases w s <;> rw [hexec] at h
  · exact exec_enablesWithin h
  · cases h
    exact ⟨id, id, id⟩

end Sys2Proof.Machine

/-! SUPPORT and PROOFS. The bytes the block has taken, on the wire and in the pipeline: what the engine,
the commands and a step do to them; and the two statements on the logs: O36 (the order of acceptance,
R60) and O37 (the logs only grow, R32, R33). -/

namespace Sys2Proof.Machine

/-! ### The wire once the pipeline is sent -/

/-- The wire log with the frames of the pipeline after it, in the configuration in force. -/
def State.wireWhenSent (s : State) : List WireEvent := s.wire ++ s.pipeline.map s.frameOf

theorem flow_eq_wireWhenSent (s : State) : s.flow = s.wireWhenSent.map eventByte := by
  have hbyte : eventByte ∘ s.frameOf = id := rfl
  simp [State.flow, State.wireWhenSent, hbyte]

theorem wireWhenSent_of_not_pending {s : State} (hidle : s.pending = false) :
    s.wireWhenSent = s.wire := by
  simp [State.wireWhenSent, (pipeline_eq_nil_iff s).2 hidle]

/-- The engine moves the bytes along the pipeline and onto the wire, and neither drops nor reorders
one (R152, R153). -/
@[simp] theorem engineMove_wireWhenSent (s : State) :
    (engineMove s).wireWhenSent = s.wireWhenSent := by
  obtain ⟨hload, h⟩ | ⟨hdone, hudre, h⟩ | ⟨hdone, hudre, h⟩ | ⟨-, h⟩ := engineMove_cases s <;> rw [h]
  · obtain ⟨-, hudre, hbusy⟩ := (loadEnabled_iff s).1 hload
    simp [State.wireWhenSent, State.pipeline, hudre, hbusy, State.frameOf]
  · have hbusy := ((frameDoneEnabled_iff s).1 hdone).2
    simp [State.wireWhenSent, State.pipeline, hudre, hbusy, State.frameOf]
  · have hbusy := ((frameDoneEnabled_iff s).1 hdone).2
    simp [State.wireWhenSent, State.pipeline, hudre, hbusy, State.frameOf]

@[simp] theorem engineMove_flow (s : State) : (engineMove s).flow = s.flow := by
  simp [flow_eq_wireWhenSent]

/-! ### O36: the commands and the flow -/

@[simp] theorem respond_flow (r : Word32) (s : State) : (respond r s).flow = s.flow := rfl
@[simp] theorem raise_flow (r : FaultRecord) (s : State) : (raise r s).flow = s.flow := rfl
@[simp] theorem writeConfig_flow (p : Divisor × Bool) (s : State) :
    (writeConfig p s).flow = s.flow := rfl
@[simp] theorem writeEnd_flow (s : State) : (writeEnd s).flow = s.flow := rfl

/-- A byte accepted into a free buffer goes to the end (R141). -/
theorem flow_accept {s : State} (hready : s.ready = true) (d : Byte) :
    (accept d s).flow = s.flow ++ [d] := by
  obtain ⟨-, -, hudre⟩ := (ready_iff s).1 hready
  cases hbusy : s.status.busy <;> simp [State.flow, State.pipeline, hudre, hbusy]

/-- An abort puts the byte in `SHIFT` on the wire and drops the one in `TXDATA` (R60, R122). -/
theorem flow_abortPending (code : FaultRecord) (s : State) :
    s.flow = (abortPending code s).flow ++ if s.status.udre then [] else [s.txdata] := by
  cases hbusy : s.status.busy <;> simp [State.flow, State.pipeline, hbusy, eventByte]

/-- Settles O36: acceptance and the abort are the only operations that change the flow, and `READY` is 1
where a byte is accepted. -/
theorem wireKeepsAcceptanceOrder : Obligations.WireKeepsAcceptanceOrder := by
  intro s t h
  cases stepTo_of_step h with
  | command i hmover hissuing hfree =>
    rw [if_pos hmover, hissuing]
    cases i with
    | config b => exact flow_abortPending .configWhilePending s.spend
    | endCmd => exact flow_abortPending .endWhilePending s.spend
    | txbyte d =>
      have hready : s.ready = true := by simpa [commandHeld, txbyteHeld] using hfree
      exact flow_accept (s := s.spend) hready d
    | txraw d =>
      cases hready : s.ready with
      | true => simp [effect, hready, flow_accept (s := s.spend) hready]
      | false => simp [effect, hready]
    | pollrdy => rfl
    | polltxc => rfl
    | flush => rfl
  | illegal w hmover hissuing => rw [if_pos hmover, hissuing]; rfl
  | branch n hmover hissuing => rw [if_pos hmover, hissuing]; rfl
  | engine hmover => simp [hmover]
  | stuck hmover => simp [hmover]

/-! ### O37: the logs -/

/-- `t` has the logs of `s` with something after them, and the parameters and program of `s`. -/
structure State.Extends (s t : State) : Prop where
  wire : s.wire <+: t.wire
  faultLog : s.faultLog <+: t.faultLog
  resps : s.resps <+: t.resps
  params : t.params = s.params
  prog : t.prog = s.prog

theorem effect_extends (i : Instr) (s : State) : s.Extends (effect i s) := by
  cases i with
  | config b => constructor <;> simp [effect]
  | endCmd => constructor <;> simp [effect]
  | txbyte d => constructor <;> simp [effect]
  | txraw d => cases hready : s.ready <;> constructor <;> simp [effect, hready]
  | pollrdy => constructor <;> simp [effect]
  | polltxc => constructor <;> simp [effect]
  | flush => constructor <;> simp [effect]

theorem engineMove_wire_prefix (s : State) : s.wire <+: (engineMove s).wire := by
  obtain ⟨-, h⟩ | ⟨-, -, h⟩ | ⟨-, -, h⟩ | ⟨-, h⟩ := engineMove_cases s <;> simp [h]

theorem engineMove_extends (s : State) : s.Extends (engineMove s) :=
  ⟨engineMove_wire_prefix s, by simp, by simp, by simp, by simp⟩

theorem step_extends {s t : State} (h : step s = .next t) : s.Extends t := by
  cases stepTo_of_step h with
  | command i =>
    obtain ⟨hwire, hfaults, hresps, hparams, hprog⟩ := effect_extends i s.spend
    exact ⟨hwire, hfaults, hresps, hparams, hprog⟩
  | illegal w => constructor <;> simp
  | branch n => constructor <;> simp
  | engine =>
    obtain ⟨hwire, hfaults, hresps, hparams, hprog⟩ := engineMove_extends s.spend
    exact ⟨hwire, hfaults, hresps, hparams, hprog⟩
  | stuck => constructor <;> simp

/-- A fault code stays in the set while the records only grow (R33). -/
theorem State.Extends.mem_faults {s t : State} (h : s.Extends t) {c : Nat} (hc : c ∈ s.faults) :
    c ∈ t.faults := by
  simp only [State.faults, List.mem_filter, List.any_eq_true] at hc ⊢
  obtain ⟨hcode, r, hr, hrc⟩ := hc
  exact ⟨hcode, r, h.faultLog.subset hr, hrc⟩

/-- Settles O37: a command and the engine append to the logs, and no agent writes the parameters or the
program. -/
theorem logsOnlyGrow : Obligations.LogsOnlyGrow := by
  intro s t h
  have hext := step_extends h
  exact ⟨hext.wire, hext.faultLog, hext.resps, fun _ => hext.mem_faults, hext.params, hext.prog⟩

end Sys2Proof.Machine

/-! SUPPORT and PROOFS. What a step does to the enables, the configuration and `READY`, and the
statements on it: O10 (held commands), O18 (`READY`), O24 (TXRAW once ready), O29 (a stopped engine), O30
(what the engine keeps) and O39 (the configuration of a frame in `SHIFT`). -/

namespace Sys2Proof.Machine

/-! ### O30: what the engine keeps -/

@[simp] theorem engineMove_enabled (s : State) : (engineMove s).enabled = s.enabled := by
  simp [State.enabled]

/-- No engine step clears `UDRE` (R83). -/
theorem engineMove_udre {s : State} (hudre : s.status.udre = true) :
    (engineMove s).status.udre = true := by
  obtain ⟨-, h⟩ | ⟨-, -, h⟩ | ⟨-, -, h⟩ | ⟨-, h⟩ := engineMove_cases s <;> simp [h, hudre]

theorem engineMove_ready {s : State} (hready : s.ready = true) : (engineMove s).ready = true := by
  rw [ready_eq, Bool.and_eq_true] at hready ⊢
  exact ⟨by rw [engineMove_enabled, hready.1], engineMove_udre hready.2⟩

/-- No engine step clears `TXC` (R131). -/
theorem engineMove_txc {s : State} (htxc : s.status.txc = true) :
    (engineMove s).status.txc = true := by
  obtain ⟨-, h⟩ | ⟨-, -, h⟩ | ⟨-, -, h⟩ | ⟨-, h⟩ := engineMove_cases s <;> simp [h, htxc]

/-- Settles O30: LOAD and FRAME_DONE set `UDRE` or `TXC` or leave them, and write no control bit, fault
or response. -/
theorem engineKeepsReadyAndComplete : Obligations.EngineKeepsReadyAndComplete :=
  fun s => ⟨engineMove_ready, engineMove_txc, engineMove_ctrl s, engineMove_faultLog s,
    engineMove_resps s⟩

/-! ### O24: TXRAW once ready -/

theorem engineMoves_ready (n : Nat) {s : State} (hready : s.ready = true) :
    (engineMoves n s).ready = true := by
  induction n generalizing s with
  | zero => exact hready
  | succ n ih => exact ih (engineMove_ready hready)

theorem engineMoves_faultLog (n : Nat) (s : State) : (engineMoves n s).faultLog = s.faultLog := by
  induction n generalizing s with
  | zero => rfl
  | succ n ih => rw [engineMoves, ih, engineMove_faultLog]

theorem exec_txbyte_of_ready {s : State} (hready : s.ready = true) (d : Byte) :
    exec (.txbyte d) s = .next (respond zeroResponse (accept d s)) := by
  rw [exec_txbyte, holdWhile_lifted _ _ (by simp [hready])]

theorem exec_txraw_of_ready {s : State} (hready : s.ready = true) (d : Byte) :
    exec (.txraw d) s = .next (respond zeroResponse (accept d s)) := by
  rw [exec_txraw, if_pos hready]

/-- Settles O24: no engine move clears `READY`, and both commands accept the byte of a ready block. -/
theorem txrawAfterReadyIsTxbyte : Obligations.TxrawAfterReadyIsTxbyte := by
  intro n s d hready
  have hstill := engineMoves_ready n hready
  rw [exec_txraw_of_ready hstill, exec_txbyte_of_ready hstill]
  exact ⟨hstill, rfl, _, rfl, rfl, rfl, engineMoves_faultLog n s⟩

/-! ### O29 and O39: what changes the configuration -/

theorem State.SameConfiguration.enabled {s t : State} (h : s.SameConfiguration t) :
    t.enabled = s.enabled := by
  rw [State.enabled, State.enabled, h.ctrl]

theorem engineMove_sameConfiguration (s : State) : s.SameConfiguration (engineMove s) :=
  ⟨engineMove_ctrl s, engineMove_div s, engineMove_frame s⟩

/-- CONFIG enables the block, END does not, and both leave nothing pending; the other commands keep the
configuration. -/
theorem effect_configuration (i : Instr) (s : State) :
    ((∃ b, i = .config b) ∧ (effect i s).enabled = true ∧ (effect i s).pending = false) ∨
    (i = .endCmd ∧ (effect i s).pending = false) ∨
    s.SameConfiguration (effect i s) := by
  cases i with
  | config b => exact .inl ⟨⟨b, rfl⟩, rfl, abortPending_not_pending _ s⟩
  | endCmd => exact .inr (.inl ⟨rfl, abortPending_not_pending _ s⟩)
  | txbyte d => exact .inr (.inr ⟨rfl, rfl, rfl⟩)
  | txraw d => cases hready : s.ready <;> exact .inr (.inr (by constructor <;> simp [effect, hready]))
  | pollrdy => exact .inr (.inr ⟨rfl, rfl, rfl⟩)
  | polltxc => exact .inr (.inr ⟨rfl, rfl, rfl⟩)
  | flush => exact .inr (.inr ⟨rfl, rfl, rfl⟩)

/-- A step that changes the configuration is CONFIG or END, which leave nothing pending. -/
theorem step_sameConfiguration_or_aborts {s t : State} (h : step s = .next t) :
    (t.enabled = true ∧ t.pending = false) ∨
    (s.issuing = some .endCmd ∧ t.pending = false) ∨ s.SameConfiguration t := by
  cases stepTo_of_step h with
  | command i _ hissuing =>
    obtain ⟨-, hconfig⟩ | ⟨rfl, hend⟩ | hsame := effect_configuration i s.spend
    · exact .inl hconfig
    · exact .inr (.inl ⟨hissuing, hend⟩)
    · exact .inr (.inr ⟨hsame.ctrl, hsame.div, hsame.frame⟩)
  | illegal w => exact .inr (.inr ⟨rfl, rfl, rfl⟩)
  | branch n => exact .inr (.inr ⟨rfl, rfl, rfl⟩)
  | engine =>
    have hsame := engineMove_sameConfiguration s.spend
    exact .inr (.inr ⟨hsame.ctrl, hsame.div, hsame.frame⟩)
  | stuck => exact .inr (.inr ⟨rfl, rfl, rfl⟩)

/-- Under the invariant the engine can move while a byte is pending (R154). -/
theorem State.Inv.engineEnabled {s : State} (hs : s.Inv) (hpending : s.pending = true) :
    s.engineEnabled = true := by
  rw [engineEnabled_eq, hs.pendingEnabled hpending, hpending]
  rfl

/-- Settles O29: the engine of a block that is not enabled is idle, only END disables a block, and under
the invariant a pending byte means an enabled block. -/
theorem engineStopsOnlyWhenOff : Obligations.EngineStopsOnlyWhenOff := by
  refine ⟨fun s hoff => ?_, fun s t h hon hoff => ?_, fun s hs => hs.engineEnabled⟩
  · have hdisabled : s.enabled = false := by obtain h | h := hoff <;> simp [State.enabled, h]
    have hidle := engineEnabled_eq_false_of_not_enabled hdisabled
    exact ⟨engineMove_of_idle hidle, mover_ne_engine_of_idle hidle⟩
  · obtain ⟨hconfig, -⟩ | hend | hsame := step_sameConfiguration_or_aborts h
    · simp [hoff] at hconfig
    · exact hend
    · simp [hsame.enabled, hon] at hoff

/-- Settles O39: a step that changes the configuration leaves no frame in `SHIFT`. -/
theorem configurationFixedDuringFrame : Obligations.ConfigurationFixedDuringFrame := by
  intro s t h _ hbusy
  have hpending : t.pending = true := (pending_iff t).2 (.inl hbusy)
  obtain ⟨-, hidle⟩ | ⟨-, hidle⟩ | hsame := step_sameConfiguration_or_aborts h
  · simp [hpending] at hidle
  · simp [hpending] at hidle
  · exact ⟨hsame.div, by rw [hsame.ctrl], hsame.frame⟩

/-! ### O18: `READY` -/

/-- CONFIG, END, TXBYTE and TXRAW, the commands that write a flag of `READY` (R127). -/
def WritesReady (i : Instr) : Prop :=
  (∃ b, i = .config b) ∨ i = .endCmd ∨ (∃ d, i = .txbyte d) ∨ ∃ d, i = .txraw d

/-- The polls and FLUSH write no flag. -/
theorem effect_ready_of_not_writesReady {i : Instr} (hi : ¬ WritesReady i) (s : State) :
    (effect i s).ready = s.ready := by
  cases i with
  | config b => exact absurd (.inl ⟨b, rfl⟩) hi
  | endCmd => exact absurd (.inr (.inl rfl)) hi
  | txbyte d => exact absurd (.inr (.inr (.inl ⟨d, rfl⟩))) hi
  | txraw d => exact absurd (.inr (.inr (.inr ⟨d, rfl⟩))) hi
  | pollrdy => rfl
  | polltxc => rfl
  | flush => rfl

/-- Settles O18: POLLRDY responds and does nothing else; a step that changes `READY` is an engine move,
which does not clear it, or one of the four commands that write its flags. -/
theorem readyChangesOnlyBy : Obligations.ReadyChangesOnlyBy := by
  refine ⟨fun s => rfl, fun s t u ht hu => ?_, fun s t h hne => ?_⟩
  · cases ht
    cases hu
    rfl
  · cases stepTo_of_step h with
    | command i hmover hissuing =>
      refine .inr ⟨hmover, i, hissuing, ?_⟩
      by_contra hi
      exact hne (effect_ready_of_not_writesReady hi s.spend)
    | illegal w => exact absurd rfl hne
    | branch n => exact absurd rfl hne
    | engine hmover =>
      refine .inl ⟨hmover, ?_⟩
      by_contra hready
      rw [Bool.not_eq_false] at hready
      exact hne ((engineMove_ready (s := s.spend) hready).trans hready.symm)
    | stuck => exact absurd rfl hne

/-! ### O10: held commands -/

/-- A host that does not move stays at its line and gets no response (R131). -/
theorem step_keeps_host {s t : State} (hmover : s.mover ≠ some .host) (h : step s = .next t) :
    t.hostPc = s.hostPc ∧ t.resps = s.resps := by
  cases stepTo_of_step h with
  | command i hhost => exact absurd hhost hmover
  | illegal w hhost => exact absurd hhost hmover
  | branch n hhost => exact absurd hhost hmover
  | engine => simp
  | stuck => exact ⟨rfl, rfl⟩

/-- Settles O10: a host at a held command is not enabled, so it does not move. -/
theorem heldCommandsWait : Obligations.HeldCommandsWait := by
  intro s i hissuing hheld
  have hhost : s.hostEnabled = false := by rw [hostEnabled_of_issuing hissuing, hheld]; rfl
  have hmover := mover_ne_host_of_not_enabled hhost
  exact ⟨exec_of_held hheld, hmover, (commandHeld_iff i s).1 hheld, fun t => step_keeps_host hmover⟩

end Sys2Proof.Machine

/-! SUPPORT and PROOFS. The commands one by one: the statements on the results, frames and flags of CONFIG
and END (O11, O12, O13, O15), of the polls and FLUSH (O16, O19, O20), of TXBYTE and TXRAW (O21, O22, O25),
and the table of all flag writes (O31). -/

namespace Sys2Proof.Machine

/-! ### O11, O12, O13 and O15: CONFIG and END -/

/-- An abort in the flags it reads. -/
theorem abortPending_eq_ite (code : FaultRecord) (s : State) :
    abortPending code s =
      { s with
        status := ⟨true, s.status.txc, false⟩
        wire := if s.status.busy then s.wire ++ [.aborted s.shift] else s.wire
        faultLog :=
          if s.status.busy = true ∨ s.status.udre = false then s.faultLog ++ [code]
          else s.faultLog } := by
  rw [abortPending_eq]
  simp only [pending_iff, apply_ite (s.wire ++ ·), apply_ite (s.faultLog ++ ·), List.append_nil]

/-- Settles O11: the abort of R122, then the registers CONFIG writes, with the calculator's result. -/
theorem configResult : Obligations.ConfigResult := by
  intro s b
  rw [exec_config, abortPending_eq_ite]
  rfl

/-- Settles O12: the abort of R122, then the enables END clears. -/
theorem endResult : Obligations.EndResult := by
  intro s
  rw [exec_endCmd, abortPending_eq_ite]
  rfl

/-- END on a block that it has already ended only answers (R125). -/
theorem exec_endCmd_of_ended {s : State} (hidle : s.pending = false) (hctrl : endCtrl s.ctrl = s.ctrl) :
    exec .endCmd s = .next (respond zeroResponse s) := by
  rw [exec_endCmd, abortPending_idle _ s hidle, writeEnd, hctrl]

/-- Settles O13: one END leaves nothing pending and the enables cleared, so that the abort and the write of
a second one have no effect. -/
theorem endIsIdempotent : Obligations.EndIsIdempotent := by
  intro s t h
  rw [exec_endCmd] at h
  cases h
  refine ⟨abortPending_not_pending _ s, rfl, rfl, rfl, ?_, ?_, ?_, ?_⟩
  · simp
  · simp
  · simp
  · exact exec_endCmd_of_ended (abortPending_not_pending _ s) rfl

/-- Settles O15: the abort writes the logs, `UDRE` and `BUSY`, CONFIG its three registers, and END the
enables. -/
theorem controlCommandsFrame : Obligations.ControlCommandsFrame := by
  rintro s t i (rfl | ⟨b, rfl⟩) h
  · rw [exec_endCmd, abortPending_eq] at h
    cases h
    exact ⟨rfl, fun _ => ⟨rfl, rfl, rfl⟩⟩
  · rw [exec_config, abortPending_eq] at h
    cases h
    exact ⟨rfl, nofun⟩

/-! ### O16, O19 and O20: the polls and FLUSH -/

/-- Settles O16: the answer is `READY` as a number. -/
theorem pollrdyResult : Obligations.PollrdyResult := by
  intro s
  rw [exec_pollrdy, flagResponse_eq, if_congr (ready_iff s) rfl rfl]
  rfl

theorem exec_flush_of_complete {s : State} (htxc : s.status.txc = true) :
    exec .flush s = .next (respond zeroResponse s) := by
  rw [exec_flush, holdWhile_lifted _ _ (by simp [htxc])]

/-- Settles O19: with `TXC = 1` FLUSH is not held. -/
theorem flushCompletes : Obligations.FlushCompletes :=
  fun _ htxc => exec_flush_of_complete htxc

/-- Settles O20: the polls only respond, and FLUSH responds or is held. -/
theorem pollsFrame : Obligations.PollsFrame := by
  rintro s t i (rfl | rfl | rfl) h
  · cases h; rfl
  · cases h; rfl
  · rw [exec_flush] at h
    obtain rfl | rfl := holdWhile_next h <;> rfl

/-! ### O21, O22 and O25: TXBYTE and TXRAW -/

/-- Settles O21: the three flags are `READY`, which lifts the hold. -/
theorem txbyteCompletes : Obligations.TxbyteCompletes :=
  fun s d hpwr htxen hudre => exec_txbyte_of_ready ((ready_iff s).2 ⟨hpwr, htxen, hudre⟩) d

/-- Settles O22: the three flags are `READY`, which selects TXRAW's accepting branch. -/
theorem txrawAccepted : Obligations.TxrawAccepted :=
  fun s d hpwr htxen hudre => exec_txraw_of_ready ((ready_iff s).2 ⟨hpwr, htxen, hudre⟩) d

/-- TXRAW on a block that is not ready only records the fault and answers (R144). -/
theorem exec_txraw_of_not_ready {s : State} (hready : s.ready = false) (d : Byte) :
    exec (.txraw d) s = .next (respond zeroResponse (raise (.txNotReady d) s)) := by
  rw [exec_txraw, if_neg (by simp [hready])]

/-- Settles O25: a ready block accepts the byte, and one that is not holds TXBYTE and discards TXRAW's
byte. -/
theorem transmitCommandsFrame : Obligations.TransmitCommandsFrame := by
  rintro s t d i (rfl | rfl) h <;> cases hready : s.ready
  · rw [exec_of_held (by simp [commandHeld, txbyteHeld, hready])] at h
    cases h
    exact ⟨rfl, fun _ => ⟨rfl, rfl⟩, fun _ => rfl⟩
  · rw [exec_txbyte_of_ready hready] at h
    cases h
    exact ⟨rfl, nofun, fun _ => rfl⟩
  · rw [exec_txraw_of_not_ready hready] at h
    cases h
    exact ⟨rfl, fun _ => ⟨rfl, rfl⟩, nofun⟩
  · rw [exec_txraw_of_ready hready] at h
    cases h
    exact ⟨rfl, nofun, nofun⟩

/-! ### O31: the table of flag writes -/

/-- With nothing pending `UDRE` is already 1 and `BUSY` 0, so an abort writes both either way (R34). -/
theorem abortPending_flags (code : FaultRecord) (s : State) :
    (abortPending code s).status.udre = (if s.pending then true else s.status.udre) ∧
    (abortPending code s).status.txc = s.status.txc ∧
    (abortPending code s).status.busy = (if s.pending then false else s.status.busy) := by
  cases hpending : s.pending with
  | true => simp
  | false =>
    obtain ⟨hbusy, hudre⟩ := (not_pending_iff s).1 hpending
    simp [hbusy, hudre]

/-- Settles O31: a row for each command that writes flags, from its equation, and for each branch of the
engine's two steps. -/
theorem flagWriteTable : Obligations.FlagWriteTable := by
  refine ⟨fun s t b h => ?_, fun s t h => ?_, fun s t d hready h => ?_, fun s t d hready h => ?_,
    fun s t h => ?_, fun s => ⟨rfl, rfl⟩, fun s hudre => ?_, fun s hudre => ?_⟩
  · rw [exec_config] at h
    cases h
    exact ⟨rfl, rfl, rfl, rfl, abortPending_flags _ s⟩
  · rw [exec_endCmd] at h
    cases h
    exact ⟨rfl, rfl, rfl, by simp, abortPending_flags _ s⟩
  · rw [exec_txbyte_of_ready hready, exec_txraw_of_ready hready, or_self] at h
    cases h
    exact ⟨rfl, rfl⟩
  · rw [exec_txraw_of_not_ready hready] at h
    cases h
    exact ⟨rfl, rfl⟩
  · obtain h | h | h := h
    · cases h; exact ⟨rfl, rfl⟩
    · cases h; exact ⟨rfl, rfl⟩
    · rw [exec_flush] at h
      obtain rfl | rfl := holdWhile_next h <;> exact ⟨rfl, rfl⟩
  · rw [frameDone_of_waiting hudre]
    exact ⟨rfl, rfl⟩
  · rw [frameDone_of_drained hudre]
    exact ⟨rfl, rfl⟩

end Sys2Proof.Machine

/-! SUPPORT and PROOFS. The fault records of the commands and the hangs, and the statements on them: O32
(R171), O45 (R131, R142) and O50 (the hazards of R194). -/

namespace Sys2Proof.Machine

/-! ### O32: fault records -/

/-- The records a command adds when it is issued in a state (R171). -/
def commandFaults (s : State) : Instr → List FaultRecord
  | .config _ => if s.pending then [.configWhilePending] else []
  | .endCmd => if s.pending then [.endWhilePending] else []
  | .txraw d => if s.ready then [] else [.txNotReady d]
  | .txbyte _ => []
  | .pollrdy => []
  | .polltxc => []
  | .flush => []

theorem effect_faultLog (i : Instr) (s : State) :
    (effect i s).faultLog = s.faultLog ++ commandFaults s i := by
  cases i with
  | config b => simp [effect, commandFaults]
  | endCmd => simp [effect, commandFaults]
  | txbyte d => simp [effect, commandFaults]
  | txraw d => cases hready : s.ready <;> simp [effect, commandFaults, hready]
  | pollrdy => simp [effect, commandFaults]
  | polltxc => simp [effect, commandFaults]
  | flush => simp [effect, commandFaults]

/-- The commands that can be held record no fault. -/
theorem commandFaults_of_held {i : Instr} {s : State} (hheld : commandHeld i s = true) :
    commandFaults s i = [] := by
  obtain ⟨d, rfl, -⟩ | ⟨rfl, -⟩ := (commandHeld_iff i s).1 hheld <;> rfl

theorem exec_faultLog {i : Instr} {s t : State} (h : exec i s = .next t) :
    t.faultLog = s.faultLog ++ commandFaults s i := by
  cases hheld : commandHeld i s with
  | true =>
    rw [exec_of_held hheld] at h
    cases h
    rw [commandFaults_of_held hheld, List.append_nil]
  | false =>
    rw [exec_of_free hheld] at h
    cases h
    exact effect_faultLog i s

/-- Settles O32: a legal word adds the records of its command, and an illegal one its own. -/
theorem faultRecordsByCommand : Obligations.FaultRecordsByCommand := by
  refine ⟨fun w s => ?_, engineMove_faultLog⟩
  obtain ⟨i, hdecode, hexec⟩ | ⟨hdecode, hexec⟩ := issueWord_cases w s <;> rw [hexec, hdecode]
  · refine ⟨_, exec_eq_effect i s, ?_⟩
    rw [exec_faultLog (exec_eq_effect i s)]
    cases i <;> rfl
  · exact ⟨_, rfl, rfl⟩

/-! ### Hangs (R131, R142) -/

section hung

variable {s : State}

/-- A host at a command hangs when the command is held and the engine idle. -/
theorem hung_of_issuing {i : Instr} (hissuing : s.issuing = some i) :
    s.hung = (commandHeld i s && !s.engineEnabled) := by
  rw [State.hung, State.quiescent, hostHeld_of_issuing hissuing]

/-- TXBYTE hangs exactly on a block that is not enabled: otherwise a full buffer is a pending byte, which
the engine moves on (R142). -/
theorem hung_txbyte {d : Byte} (hissuing : s.issuing = some (.txbyte d)) : s.hung = !s.enabled := by
  rw [hung_of_issuing hissuing, commandHeld, txbyteHeld, ready_eq, engineEnabled_eq, State.pending]
  cases s.enabled <;> cases s.status.udre <;> simp

/-- FLUSH hangs with `TXC = 0` where no byte is pending on an enabled block (R132). -/
theorem hung_flush (hissuing : s.issuing = some .flush) :
    s.hung = (!s.status.txc && !(s.enabled && s.pending)) := by
  rw [hung_of_issuing hissuing, commandHeld, flushHeld, engineEnabled_eq]

/-- A hung machine stays as it is: neither agent is enabled. -/
theorem step_of_hung (hhung : s.hung = true) : step s = .next s := by
  obtain ⟨hheld, hidle⟩ : s.hostHeld = true ∧ s.engineEnabled = false := by
    simpa [State.hung, State.quiescent] using hhung
  have hhost : s.hostEnabled = false := by simp [State.hostEnabled, hheld]
  apply step_of_mover_none
  simp [State.mover, hhost, hidle]

theorem run_of_hung (hhung : s.hung = true) (k : Nat) : Host.Core.run core k s = .next s := by
  induction k with
  | zero => rfl
  | succ k ih => exact (run_succ_of_step (M := core) (step_of_hung hhung) k).trans ih

end hung

/-- Settles O45: both states are hung, and a hung machine stays as it is. -/
theorem hangsAreForever : Obligations.HangsAreForever := by
  intro s hcase
  have hhung : s.hung = true := by
    obtain ⟨⟨d, hissuing⟩, hoff⟩ | ⟨hissuing, htxc, hidle⟩ := hcase
    · simp [hung_txbyte hissuing, hoff]
    · simp [hung_flush hissuing, htxc, hidle]
  exact ⟨by rw [State.runEnd, if_pos hhung], run_of_hung hhung⟩

/-! ### O50: the hazards -/

/-- Settles O50: HZ1 to HZ3 are the conditions of a command's fault record, and HZ4 and HZ5 those under
which TXBYTE and FLUSH hang. -/
theorem hazardsAreTheBadCases : Obligations.HazardsAreTheBadCases := by
  intro s t i hissuing h
  have hfaults := exec_faultLog h
  cases i with
  | config b =>
    cases hpending : s.pending with
    | true => simpa [hazard, commandFaults, hpending] using hfaults
    | false =>
      simpa [hazard, commandFaults, hpending, hung_of_issuing hissuing, commandHeld] using hfaults
  | endCmd =>
    cases hpending : s.pending with
    | true => simpa [hazard, commandFaults, hpending] using hfaults
    | false =>
      simpa [hazard, commandFaults, hpending, hung_of_issuing hissuing, commandHeld] using hfaults
  | txbyte d =>
    cases henabled : s.enabled with
    | true => simpa [hazard, commandFaults, henabled, hung_txbyte hissuing] using hfaults
    | false => simp [hazard, henabled, hung_txbyte hissuing]
  | txraw d =>
    cases hready : s.ready with
    | true =>
      simpa [hazard, commandFaults, hready, hung_of_issuing hissuing, commandHeld] using hfaults
    | false => simpa [hazard, commandFaults, hready] using hfaults
  | pollrdy => simpa [hazard, commandFaults, hung_of_issuing hissuing, commandHeld] using hfaults
  | polltxc => simpa [hazard, commandFaults, hung_of_issuing hissuing, commandHeld] using hfaults
  | flush =>
    cases htxc : s.status.txc with
    | true => simpa [hazard, commandFaults, htxc, hung_flush hissuing] using hfaults
    | false =>
      cases hpending : s.pending with
      | true =>
        have henabled (hs : s.Inv) : s.enabled = true := hs.pendingEnabled hpending
        simpa [hazard, commandFaults, htxc, hpending, hung_flush hissuing]
          using And.intro hfaults henabled
      | false => simp [hazard, htxc, hpending, hung_flush hissuing]

end Sys2Proof.Machine

/-! SUPPORT and PROOFS. The step and the host's lines, and the statements on them: O5, O6, O7, O8 and O9
(R11, R13, R170). -/

namespace Sys2Proof.Machine

/-- Settles O5: the mover selects the branch of the step. -/
theorem stepMovesOneAgent : Obligations.StepMovesOneAgent :=
  fun _ => ⟨step_of_mover_host, step_of_mover_engine, step_of_mover_none⟩

/-- Settles O6: the host's move at a line that issues a command runs it. -/
theorem stepRunsDecodedCommand : Obligations.StepRunsDecodedCommand := by
  intro s w i hline hdecode hmover
  have hissuing : s.issuing = some i := (issuing_of_issue hline).trans hdecode
  rw [step_of_mover_host hmover, hostMove_of_issuing (by simpa using hissuing)]
  rfl

/-- With both agents enabled the head of the schedule moves (R159). -/
theorem mover_of_both_enabled {s : State} (a : Agent) (rest : List Agent)
    (hhost : s.hostEnabled = true) (hengine : s.engineEnabled = true) :
    ({ s with sched := a :: rest } : State).mover = some a := by
  have hhost' : ({ s with sched := a :: rest } : State).hostEnabled = true := hhost
  have hengine' : ({ s with sched := a :: rest } : State).engineEnabled = true := hengine
  rw [State.mover, if_pos hhost', if_pos hengine']
  rfl

/-- Settles O7: the schedule decides only who moves, and its entry is used up. -/
theorem eitherAgentMayMove : Obligations.EitherAgentMayMove := by
  intro s a rest hhost hengine
  have hmover := mover_of_both_enabled a rest hhost hengine
  cases a with
  | host => exact step_of_mover_host hmover
  | engine => exact step_of_mover_engine hmover

/-- `BZ` reads the newest response (R11). -/
theorem lastResp_of_resps {s : State} {before : List Word32} {r : Word32}
    (hresps : s.resps = before ++ [r]) : s.lastResp = r := by
  simp [State.lastResp, hresps]

/-- Settles O8: the two branches by their equations, and at `HALT` the host is not enabled. -/
theorem hostLinesBranch : Obligations.HostLinesBranch := by
  refine fun s n => ⟨fun before r hline hresps => ?_, fun hline => ?_, fun hline => ?_⟩
  · rw [hostMove, hline]
    rw [lastResp_of_resps hresps]
    cases r.getLsbD 0 <;> rfl
  · rw [hostMove, hline]
  · have hhost : s.hostEnabled = false := by simp [State.hostEnabled, State.halted, hline]
    exact ⟨hhost, mover_ne_host_of_not_enabled hhost⟩

/-- Settles O9: a legal word answers the state its command leads to, an illegal one the state with its
fault recorded, and every agent's move answers a state. -/
theorem nothingStops : Obligations.NothingStops := by
  refine ⟨fun w s => ?_, step_answers⟩
  obtain ⟨i, -, hexec⟩ | ⟨-, hexec⟩ := issueWord_cases w s
  · exact ⟨_, hexec.trans (exec_eq_effect i s)⟩
  · exact ⟨_, hexec⟩

end Sys2Proof.Machine

/-! SUPPORT and PROOFS. Bits and words written out: O1 (the words of the spec, R81), O49 (the registers'
layout, R23, R27) and O60 (the pseudo-instructions, R82 to R84). -/

namespace Sys2Proof.Machine

/-- Settles O1: the words are those of the commands, and no branch of R77 accepts the last three. -/
theorem specWordsDecode : Obligations.SpecWordsDecode :=
  ⟨decode_encode (.config 9600#32), decode_encode (.config 4294967295#32), decode_encode .endCmd,
    decode_encode (.txbyte 0x48#8), decode_encode (.txraw 0x87#8), decode_encode .pollrdy,
    decode_encode .polltxc, decode_encode .flush, by decide, by decide, by decide⟩

section layout

variable {n : Nat} (x : BitVec n) (flag : Bool)

/-- A flag appended below a field is bit 0. -/
theorem getLsbD_append_ofBool_zero : (x ++ BitVec.ofBool flag).getLsbD 0 = flag :=
  BitVec.getLsbD_concat_zero

/-- A flag appended below a field moves its bits up by one. -/
theorem getLsbD_append_ofBool_succ (k : Nat) :
    (x ++ BitVec.ofBool flag).getLsbD (k + 1) = x.getLsbD k :=
  BitVec.getLsbD_concat_succ

end layout

/-- Bits 7:4 of `STATUS` are the zero field above its four flags (R27). -/
theorem statusWord_reserved (s : State) : s.statusWord.extractLsb' 4 4 = 0#4 := by
  apply BitVec.eq_of_getLsbD_eq
  intro i hi
  simp only [BitVec.getLsbD_extractLsb', hi, decide_true, Bool.true_and, Nat.add_comm 4 i,
    State.statusWord, getLsbD_append_ofBool_succ]

/-- Settles O49: each word is built by appending its flags below its reserved bits, in the order of the
rule. -/
theorem registerLayout : Obligations.RegisterLayout := by
  refine ⟨fun c => ?_, fun s => ?_⟩
  · simp only [ctrlWord, getLsbD_append_ofBool_zero, getLsbD_append_ofBool_succ]
    simp
  · simp only [statusWord_reserved]
    simp only [State.statusWord, getLsbD_append_ofBool_zero, getLsbD_append_ofBool_succ, and_self]

/-- A byte command's word has 24 zero bits between its opcode and its operand (R72). -/
theorem cmdWord_setWidth (op : BitVec 8) (d : Byte) :
    cmdWord op (d.setWidth 32) = op ++ 0x000000#24 ++ d := by
  apply BitVec.eq_of_getLsbD_eq
  intro i hi
  simp only [cmdWord, BitVec.getLsbD_append, BitVec.getLsbD_setWidth]
  by_cases hbyte : i < 8
  · simp [hbyte, show i < 32 by omega]
  · by_cases harg : i < 32
    · simp [hbyte, harg, show i - 8 < 24 by omega, BitVec.getLsbD_of_ge d i (by omega)]
    · simp [hbyte, harg, show ¬ i - 8 < 24 by omega, show i - 8 - 24 = i - 32 by omega]

theorem issueCmd_txbyte (d : Byte) : issueCmd (.txbyte d) = .issue (0x03#8 ++ 0x000000#24 ++ d) :=
  congrArg HostLine.issue (cmdWord_setWidth 0x03#8 d)

theorem issueCmd_txraw (d : Byte) : issueCmd (.txraw d) = .issue (0x04#8 ++ 0x000000#24 ++ d) :=
  congrArg HostLine.issue (cmdWord_setWidth 0x04#8 d)

theorem sendBytes_eq (bytes : List Byte) :
    sendBytes bytes = bytes.map fun d => .issue (0x03#8 ++ 0x000000#24 ++ d) := by
  simp only [sendBytes, issueCmd_txbyte]

/-- The text sent ends before its first zero byte (R84). -/
theorem takeWhile_text (text rest : List Byte) (h : ∀ b ∈ text, b ≠ 0#8) :
    ((text ++ 0#8 :: rest).takeWhile fun b => b != 0#8) = text := by
  rw [List.takeWhile_append_of_pos (by simpa using h)]
  simp

/-- The sixteen characters in their order. -/
theorem digitChar_eq (n : Byte) :
    digitChar n = [0x30#8, 0x31#8, 0x32#8, 0x33#8, 0x34#8, 0x35#8, 0x36#8, 0x37#8, 0x38#8, 0x39#8,
      0x61#8, 0x62#8, 0x63#8, 0x64#8, 0x65#8, 0x66#8].getD (n.toNat % 16) 0#8 := by
  revert n
  decide

/-- Settles O60: the pseudo-instructions are lists of command lines and branches, and every TXBYTE line is
the word of R72. -/
theorem pseudoExpansions : Obligations.PseudoExpansions := by
  intro k
  refine ⟨rfl, fun b => rfl, rfl, fun d => ?_, rfl, rfl, sendBytes_eq, fun text rest h => ?_, rfl,
    fun d => ?_, fun n => ?_⟩
  · rw [expand, issueCmd_txraw]
    rfl
  · rw [expand, takeWhile_text text rest h, sendBytes_eq]
  · exact sendBytes_eq (binText d)
  · rw [expand, sendBytes_eq, digitChar_eq]
    rfl

end Sys2Proof.Machine

/-! SUPPORT and PROOFS. How many moves the engine still has to make, and that a held command completes once
it has made them: the statements O42 (FLUSH, R132) and O44 (TXBYTE, R142). -/

namespace Sys2Proof.Machine

/-! ### The moves the engine has left -/

/-- The moves after which the engine is idle (R151 to R153): with a byte in `TXDATA` two, whether or not a
frame is in `SHIFT`, since its LOAD or the end of that frame starts its own; with a frame in `SHIFT` alone
one. -/
def State.movesLeft (s : State) : Nat :=
  if s.status.udre then if s.status.busy then 1 else 0 else 2

theorem movesLeft_le_two (s : State) : s.movesLeft ≤ 2 := by
  unfold State.movesLeft
  split_ifs <;> omega

/-- Every move of the engine is one less to make. -/
theorem engineMove_movesLeft {s : State} (henabled : s.engineEnabled = true) :
    (engineMove s).movesLeft + 1 = s.movesLeft := by
  obtain ⟨hload, h⟩ | ⟨hdone, hudre, h⟩ | ⟨hdone, hudre, h⟩ | ⟨hidle, -⟩ := engineMove_cases s
  · obtain ⟨-, hudre, -⟩ := (loadEnabled_iff s).1 hload
    simp [h, State.movesLeft, hudre]
  · obtain ⟨-, hbusy⟩ := (frameDoneEnabled_iff s).1 hdone
    simp [h, State.movesLeft, hudre, hbusy]
  · obtain ⟨-, hbusy⟩ := (frameDoneEnabled_iff s).1 hdone
    simp [h, State.movesLeft, hudre, hbusy]
  · simp [henabled] at hidle

theorem engineMove_issuing (s : State) : (engineMove s).issuing = s.issuing := by
  simp only [State.issuing, State.currentLine, engineMove_prog, engineMove_hostPc]

/-- A command completes within the engine's moves and one more, if the engine keeps a property under which
its idling lifts the hold. -/
theorem run_completes {i : Instr} {P : State → Prop}
    (hengine : ∀ s, P s → s.engineEnabled = true → P (engineMove s.spend))
    (hlift : ∀ s, P s → s.engineEnabled = false → commandHeld i s = false)
    {s : State} (hissuing : s.issuing = some i) (hs : P s) :
    ∃ k u, k ≤ s.movesLeft + 1 ∧ P u ∧ commandHeld i u = false ∧
      Host.Core.run core k s = .next (effect i u.spend) := by
  induction hn : s.movesLeft using Nat.strong_induction_on generalizing s with
  | h n ih =>
    obtain ⟨t, ht⟩ := step_answers s
    have hrun (k : Nat) := run_succ_of_step (M := core) ht k
    cases stepTo_of_step ht with
    | command j _ hj hfree =>
      obtain rfl : i = j := Option.some.inj (hissuing.symm.trans hj)
      exact ⟨1, s, by omega, hs, hfree, hrun 0⟩
    | illegal w _ hnone => simp [hissuing] at hnone
    | branch m _ hnone => simp [hissuing] at hnone
    | engine _ henabled =>
      have hless : (engineMove s.spend).movesLeft + 1 = n :=
        (engineMove_movesLeft (s := s.spend) henabled).trans hn
      obtain ⟨k, u, hk, hu, hfree, hku⟩ :=
        ih _ (by omega) ((engineMove_issuing s.spend).trans hissuing) (hengine s hs henabled) rfl
      exact ⟨k + 1, u, by omega, hu, hfree, (hrun k).trans hku⟩
    | stuck hmover =>
      obtain ⟨hother, -⟩ | ⟨hother, -⟩ | ⟨-, hhost, hidle⟩ := mover_cases s
      · simp [hmover] at hother
      · simp [hmover] at hother
      · simp [hostEnabled_of_issuing hissuing, hlift s hs hidle] at hhost

/-! ### O44: TXBYTE on a configured block -/

/-- `t` is enabled, with the host and the fault records of `s`. -/
structure State.WaitsEnabled (s t : State) : Prop where
  enabled : t.enabled = true
  resps : t.resps = s.resps
  hostPc : t.hostPc = s.hostPc
  faultLog : t.faultLog = s.faultLog

theorem State.WaitsEnabled.engineMove {s t : State} (ht : s.WaitsEnabled t) :
    s.WaitsEnabled (engineMove t.spend) := by
  constructor <;> simp [ht.enabled, ht.resps, ht.hostPc, ht.faultLog]

/-- The engine of an enabled block is idle only with a free buffer (R142). -/
theorem State.WaitsEnabled.txbyte_free {s t : State} (ht : s.WaitsEnabled t) (d : Byte)
    (hidle : t.engineEnabled = false) : commandHeld (.txbyte d) t = false := by
  rw [engineEnabled_eq, ht.enabled, Bool.true_and, not_pending_iff] at hidle
  simp [commandHeld, txbyteHeld, ready_eq, ht.enabled, hidle.2]

/-- Settles O44: once the engine of an enabled block is idle, its buffer is free, and the engine has at most
two moves left. -/
theorem txbyteAcceptedWhenConfigured : Obligations.TxbyteAcceptedWhenConfigured := by
  intro s d henabled hissuing
  obtain ⟨k, u, hk, hu, -, hrun⟩ := run_completes (P := s.WaitsEnabled)
    (fun _ ht _ => ht.engineMove) (fun _ ht => ht.txbyte_free d) hissuing
    ⟨henabled, rfl, rfl, rfl⟩
  have htwo := movesLeft_le_two s
  refine ⟨k, _, by omega, hrun, ?_, ?_, rfl, rfl, ?_⟩
  · simp [effect, hu.resps, zeroResponse]
  · simp [effect, hu.hostPc]
  · simp [effect, hu.faultLog]

/-! ### O42: FLUSH with a byte pending -/

/-- An engine move leaves a byte pending or sets `TXC` (R152, R153). -/
theorem engineMove_pending_or_txc {s : State} (henabled : s.engineEnabled = true) :
    (engineMove s).pending = true ∨ (engineMove s).status.txc = true := by
  obtain ⟨-, h⟩ | ⟨hdone, -, h⟩ | ⟨-, -, h⟩ | ⟨hidle, -⟩ := engineMove_cases s
  · simp [h, State.pending]
  · simp [h, State.pending, ((frameDoneEnabled_iff s).1 hdone).2]
  · simp [h]
  · simp [henabled] at hidle

/-- `t` sends what `s` sends, with a byte still pending or all of them sent, and the host of `s`. -/
structure State.WaitsSending (s t : State) : Prop where
  inv : t.Inv
  pendingOrComplete : t.pending = true ∨ t.status.txc = true
  sends : t.wireWhenSent = s.wireWhenSent
  resps : t.resps = s.resps
  hostPc : t.hostPc = s.hostPc

theorem State.WaitsSending.engineMove {s t : State} (ht : s.WaitsSending t)
    (henabled : t.engineEnabled = true) : s.WaitsSending (engineMove t.spend) where
  inv := ht.inv.spend.engineMove
  pendingOrComplete := engineMove_pending_or_txc (s := t.spend) henabled
  sends := (engineMove_wireWhenSent t.spend).trans ht.sends
  resps := by simp [ht.resps]
  hostPc := by simp [ht.hostPc]

/-- Under the invariant an idle engine has nothing pending, so `TXC` is set (R132). -/
theorem State.WaitsSending.flush_free {s t : State} (ht : s.WaitsSending t)
    (hidle : t.engineEnabled = false) : commandHeld .flush t = false := by
  obtain hpending | htxc := ht.pendingOrComplete
  · simp [ht.inv.engineEnabled hpending] at hidle
  · simp [commandHeld, flushHeld, htxc]

/-- Settles O42: FLUSH completes with `TXC = 1`, so that nothing is pending and the wire holds the whole
pipeline, which no engine move changes. -/
theorem flushCompletesWithPending : Obligations.FlushCompletesWithPending := by
  intro s hs hissuing hpending
  obtain ⟨k, u, hk, hu, hfree, hrun⟩ := run_completes (P := s.WaitsSending)
    (fun _ ht => ht.engineMove) (fun _ ht => ht.flush_free) hissuing
    ⟨hs, .inl hpending, rfl, rfl, rfl⟩
  have htwo := movesLeft_le_two s
  have htxc : u.status.txc = true := by simpa [commandHeld, flushHeld] using hfree
  have hdone := hu.inv.completeIdle htxc
  refine ⟨k, _, by omega, hrun, ?_, ?_, ?_, hdone, htxc⟩
  · simp [effect, hu.resps, zeroResponse]
  · simp [effect, hu.hostPc]
  · exact (wireWhenSent_of_not_pending hdone).symm.trans hu.sends

end Sys2Proof.Machine

/-! SUPPORT and PROOFS. Steps that abort nothing: they keep the flow and its progress along the pipeline;
and the statement on weakly fair runs: O43 (R156). -/

namespace Sys2Proof.Machine

/-! ### Steps without CONFIG and END -/

/-- The host issues neither CONFIG nor END. -/
def State.NoAbort (s : State) : Prop :=
  s.issuing ≠ some .endCmd ∧ ∀ b, s.issuing ≠ some (.config b)

/-- How far the bytes have come: two for each event on the wire, one for a frame in `SHIFT`. -/
def State.progress (s : State) : Nat := 2 * s.wire.length + if s.status.busy then 1 else 0

/-- Without CONFIG and END no byte taken is dropped (R60). -/
theorem flow_prefix_of_step {s t : State} (hno : s.NoAbort) (h : step s = .next t) :
    s.flow <+: t.flow := by
  have horder := wireKeepsAcceptanceOrder s t h
  obtain ⟨hend, hconfig⟩ := hno
  split at horder
  · split at horder
    case h_1 => exact horder ▸ List.prefix_append _ _
    case h_2 =>
      rw [horder]
      split_ifs
      · exact List.prefix_append _ _
      · exact List.prefix_rfl
    case h_3 b hissuing => exact absurd hissuing (hconfig b)
    case h_4 hissuing => exact absurd hissuing hend
    all_goals exact horder ▸ List.prefix_rfl
  · exact horder ▸ List.prefix_rfl

/-- A move of the engine is progress: LOAD starts a frame, and FRAME_DONE puts one on the wire. -/
theorem progress_lt_engineMove {s : State} (henabled : s.engineEnabled = true) :
    s.progress < (engineMove s).progress := by
  obtain ⟨hload, h⟩ | ⟨hdone, -, h⟩ | ⟨hdone, -, h⟩ | ⟨hidle, -⟩ := engineMove_cases s
  · obtain ⟨-, -, hbusy⟩ := (loadEnabled_iff s).1 hload
    simp [h, State.progress, hbusy]
  · obtain ⟨-, hbusy⟩ := (frameDoneEnabled_iff s).1 hdone
    simp [h, State.progress, hbusy]
  · obtain ⟨-, hbusy⟩ := (frameDoneEnabled_iff s).1 hdone
    simp [h, State.progress, hbusy, Nat.mul_add]
  · simp [henabled] at hidle

theorem progress_effect {i : Instr} (hend : i ≠ .endCmd) (hconfig : ∀ b, i ≠ .config b) (s : State) :
    (effect i s).progress = s.progress := by
  cases i with
  | config b => exact absurd rfl (hconfig b)
  | endCmd => exact absurd rfl hend
  | txbyte d => rfl
  | txraw d => cases hready : s.ready <;> simp [effect, State.progress, hready]
  | pollrdy => rfl
  | polltxc => rfl
  | flush => rfl

theorem progress_le_step {s t : State} (hno : s.NoAbort) (h : step s = .next t) :
    s.progress ≤ t.progress := by
  obtain ⟨hend, hconfig⟩ := hno
  cases stepTo_of_step h with
  | command i _ hissuing =>
    refine (progress_effect ?_ ?_ s.spend).ge
    · rintro rfl; exact hend hissuing
    · rintro b rfl; exact hconfig b hissuing
  | illegal w => exact le_rfl
  | branch n => exact le_rfl
  | engine _ henabled => exact (progress_lt_engineMove (s := s.spend) henabled).le
  | stuck => exact le_rfl

/-- Enough progress puts a given number of events on the wire. -/
theorem le_wire_length_of_progress {s : State} {n : Nat} (h : 2 * n ≤ s.progress) :
    n ≤ s.wire.length := by
  unfold State.progress at h
  split_ifs at h <;> omega

/-! ### O43: weakly fair runs -/

theorem inv_run {run : Nat → State} (hfair : WeaklyFair run) (hinv : (run 0).Inv) (n : Nat) :
    (run n).Inv := by
  induction n with
  | zero => exact hinv
  | succ n ih => exact invariantKept _ _ ih (hfair.steps n)

section runs

variable {run : Nat → State} (hfair : WeaklyFair run) (hno : ∀ n, (run n).NoAbort)

include hfair hno

theorem flow_prefix_run (n : Nat) : (run 0).flow <+: (run n).flow := by
  induction n with
  | zero => exact List.prefix_rfl
  | succ n ih => exact ih.trans (flow_prefix_of_step (hno n) (hfair.steps n))

theorem progress_run_mono : Monotone fun n => (run n).progress :=
  monotone_nat_of_le_succ fun n => progress_le_step (hno n) (hfair.steps n)

/-- Unless the engine idles at some point, fairness makes it move again and again. -/
theorem run_progresses_or_idles (k : Nat) :
    ∃ m, k ≤ (run m).progress ∨ (run m).engineEnabled = false := by
  induction k with
  | zero => exact ⟨0, .inl (Nat.zero_le _)⟩
  | succ k ih =>
    obtain ⟨m, hprogress | hidle⟩ := ih
    · by_cases henabled : ∀ j, m ≤ j → (run j).engineEnabled = true
      · obtain ⟨j, hj, hmover⟩ := hfair.engine m henabled
        have hmove : run (j + 1) = engineMove (run j).spend :=
          Host.Outcome.next.inj ((hfair.steps j).symm.trans (step_of_mover_engine hmover))
        have hstep : (run j).progress < (run (j + 1)).progress :=
          hmove ▸ progress_lt_engineMove (s := (run j).spend) (henabled j hj)
        have hmono : (run m).progress ≤ (run j).progress := progress_run_mono hfair hno hj
        exact ⟨j + 1, .inl (by omega)⟩
      · push Not at henabled
        obtain ⟨j, -, hidle⟩ := henabled
        exact ⟨j, .inr (by simpa using hidle)⟩
    · exact ⟨m, .inr hidle⟩

end runs

/-- With an idle engine every byte taken is on the wire, since under the invariant none is pending. -/
theorem flow_of_idle {s : State} (hs : s.Inv) (hidle : s.engineEnabled = false) :
    s.flow = s.wire.map eventByte := by
  have hpending : s.pending = false := by
    by_contra hpending
    simp [hs.engineEnabled (by simpa using hpending)] at hidle
  rw [flow_eq_wireWhenSent, wireWhenSent_of_not_pending hpending]

/-- Settles O43: the flow at the start stays at the front of the flow, and the run reaches a point where
the wire is as long as it, or the pipeline is empty. -/
theorem fairRunsSendEveryByte : Obligations.FairRunsSendEveryByte := by
  intro run hfair hinv hno
  obtain ⟨m, hprogress | hidle⟩ := run_progresses_or_idles hfair hno (2 * (run 0).flow.length)
  · refine ⟨m, List.prefix_of_prefix_length_le (flow_prefix_run hfair hno m)
      (List.prefix_append _ _) ?_⟩
    rw [List.length_map]
    exact le_wire_length_of_progress hprogress
  · exact ⟨m, flow_of_idle (inv_run hfair hinv m) hidle ▸ flow_prefix_run hfair hno m⟩

end Sys2Proof.Machine

/-! SUPPORT and PROOFS. The calculator's quotients and when each result is given, and the statements on
them: O53 (the closed form, R111), O54 (R112, R114), O55 (the reference clock, R113), O56 (R107), O58
(rounding, R110) and O59 (the wrapping reading, U8). -/

namespace Sys2Proof.Machine

/-! ### O53: the closed form -/

theorem halve_ideal_gt_iff (q : Nat) : halve .ideal q > 4095 ↔ 8193 ≤ q := by
  rw [halve_ideal]
  omega

/-- Settles O53: `halve` truncates toward zero, which in natural numbers is the truncated difference's
half. -/
theorem divisorClosedForm : Obligations.DivisorClosedForm :=
  fun q => ⟨fun h => halve_ideal_of_lt_three (by omega), fun _ => halve_ideal q,
    halve_ideal_gt_iff q⟩

/-! ### The quotients -/

theorem quotient4_eq (f bc : Nat) : quotient4 f bc = f / (4 * bc) := Nat.div_div_eq_div_mul f 4 bc

theorem quotient8_eq (f bc : Nat) : quotient8 f bc = f / (8 * bc) := Nat.div_div_eq_div_mul f 8 bc

/-- The double-speed flag is given when `d2` fits the register, but for the special case (R103). -/
theorem baudCalc_double_iff (f b : Nat) :
    (baudCalc .ideal f b).2 = true ↔
      quotient4 f (clampBaud b) ≤ 8192 ∧ ¬ (clampBaud b = 57600 ∧ f = 16000000) := by
  have hfits : quotient4 f (clampBaud b) ≤ 8192 ↔ ¬ 8193 ≤ quotient4 f (clampBaud b) := by omega
  rw [baudCalc_eq, hfits, ← halve_ideal_gt_iff, ← not_or]
  split_ifs with hfallback
  · simp [hfallback]
  · simp [hfallback]

/-! ### O54: the testable properties -/

/-- 57600 at the reference clock is the special case (R103). -/
theorem baudCalc_special : baudCalc .ideal 16000000 57600 = (16, false) := by decide

/-- At another clock 57600 is decided by the range test alone (R112). -/
theorem baudCalc_57600_double_iff {f : Nat} (hf : f ≠ 16000000) :
    (baudCalc .ideal f 57600).2 = true ↔ f / 4 / 57600 ≤ 8192 := by
  have hclamp : clampBaud 57600 = 57600 := clampBaud_of_ge (by omega)
  simp [baudCalc_double_iff, hclamp, hf, quotient4]

/-- The error-tolerance property of one request as a distance (R114). -/
theorem rateWithin_iff (tol : ℚ) (p : Params) (b : Word32) :
    rateWithin tol p b ↔
      |effectiveRate (clockHz p) (programmed p b).1 (programmed p b).2 -
        (clampBaud (requestedBaud b) : ℚ)| ≤ tol * (clampBaud (requestedBaud b) : ℚ) :=
  abs_sub_le_iff.symm

/-- 230400 at 16 MHz gets the divisor 8, a rate of 222222 and two ninths (R114). -/
theorem tol_ge_of_230400 {arith : CalcArith} {tol : ℚ}
    (h : rateWithin tol ⟨16000000#32, arith⟩ 230400#32) : 23 / 648 ≤ tol := by
  have hprogrammed : programmed ⟨16000000#32, arith⟩ 230400#32 = (8#12, true) := by
    cases arith <;> decide
  have hrate : effectiveRate (clockHz ⟨16000000#32, arith⟩) 8#12 true = 2000000 / 9 := by
    norm_num [effectiveRate, clockHz]
  have hclamp : clampBaud (requestedBaud 230400#32) = 230400 := by decide
  have hlow := h.2
  simp only [hprogrammed, hrate, hclamp] at hlow
  push_cast at hlow
  linarith

/-- 4 000 000 at 16 MHz gets the divisor 0, half the rate asked for (R114). -/
theorem tol_ge_of_4000000 {arith : CalcArith} {tol : ℚ}
    (h : rateWithin tol ⟨16000000#32, arith⟩ 4000000#32) : 1 / 2 ≤ tol := by
  have hprogrammed : programmed ⟨16000000#32, arith⟩ 4000000#32 = (0#12, true) := by
    cases arith <;> decide
  have hrate : effectiveRate (clockHz ⟨16000000#32, arith⟩) 0#12 true = 2000000 := by
    norm_num [effectiveRate, clockHz]
  have hclamp : clampBaud (requestedBaud 4000000#32) = 4000000 := by decide
  have hlow := h.2
  simp only [hprogrammed, hrate, hclamp] at hlow
  push_cast at hlow
  linarith

/-- Settles O54: the special case, the range test at 57600, the clamp, and the tolerance two requests ask
for. -/
theorem specialRateProperties : Obligations.SpecialRateProperties := by
  obtain ⟨-, -, hclamp⟩ := ratesBelow300Clamp
  refine ⟨baudCalc_special, fun f hf => ?_, hclamp .ideal, fun arith tol S => ⟨?_, ?_, ?_⟩⟩
  · have hrange := baudCalc_57600_double_iff hf
    exact ⟨hrange, hrange.trans (by omega)⟩
  · simp only [rateProperty, rateWithin_iff]
    rfl
  · exact fun hS h => tol_ge_of_230400 (h _ _ hS)
  · exact fun hS h => tol_ge_of_4000000 (h _ _ hS)

/-! ### O55: the reference clock -/

/-- Settles O55: the quotient at 16 MHz is that of 4 000 000 by the rate, compared with 8193 and 3 at the
ends of the ranges. -/
theorem referenceClockRanges : Obligations.ReferenceClockRanges := by
  intro b
  have hq : quotient4 16000000 b = 4000000 / b := rfl
  refine ⟨fun hlow hhigh => ?_, ?_, fun hlow hother => ?_, fun hlow => ?_, ?_, ?_⟩
  · have hquot : 8196 ≤ quotient4 16000000 b := by
      rw [hq, Nat.le_div_iff_mul_le (by omega)]
      omega
    refine ⟨hquot, Bool.eq_false_iff.2 fun hdouble => ?_⟩
    rw [baudCalc_double_iff, clampBaud_of_ge hlow] at hdouble
    omega
  · rintro rfl
    exact baudCalc_special
  · have hquot : quotient4 16000000 b < 8193 := by
      rw [hq, Nat.div_lt_iff_lt_mul (by omega)]
      omega
    rw [baudCalc_double_iff, clampBaud_of_ge (by omega)]
    omega
  · have hquot : quotient4 16000000 b < 3 := by
      rw [hq, Nat.div_lt_iff_lt_mul (by omega)]
      omega
    refine ⟨by omega, highRatesGiveZero _ _ ?_, by norm_num [effectiveRate]⟩
    rwa [clampBaud_of_ge (by omega)]
  · rintro rfl
    decide
  · rintro rfl
    decide

/-! ### O56: the fallback divisor above 4095 -/

/-- Settles O56: the least rate, 300, gives the largest quotient. -/
theorem fallbackOverflowClocks : Obligations.FallbackOverflowClocks := by
  refine ⟨fun f => ⟨?_, fun hf => ⟨300, le_rfl, ?_⟩⟩, fun bc hbc => ?_, by decide, by decide⟩
  · rintro ⟨bc, hbc, hquot⟩
    rw [quotient8_eq, Nat.le_div_iff_mul_le (by omega)] at hquot
    omega
  · rw [quotient8_eq, Nat.le_div_iff_mul_le (by omega)]
    omega
  · have hquot : quotient8 16000000 bc ≤ 2000000 / 300 := Nat.div_le_div_left hbc (by omega)
    rw [halve_ideal]
    omega

/-! ### O58: rounding -/

/-- Half of a quotient's predecessor is half the ratio rounded to the nearest integer, less 1 (R110). -/
theorem halve_ideal_div_eq_floor {f m : Nat} (hm : 0 < m) (hf : m ≤ f) :
    halve .ideal (f / m) = ⌊(f : ℚ) / (2 * m) + 1 / 2⌋ - 1 := by
  have hratio : (f : ℚ) / (2 * m) + 1 / 2 = ((f + m : Nat) : ℚ) / ((m * 2 : Nat) : ℚ) := by
    push_cast
    field_simp
  have hquot : (f + m) / (m * 2) = (f / m + 1) / 2 := by
    rw [← Nat.div_div_eq_div_mul, Nat.add_div_right f hm]
  have hpos : 0 < f / m := Nat.div_pos hf hm
  rw [hratio, Rat.floor_natCast_div_natCast, ← Int.natCast_div, hquot, halve_ideal]
  omega

/-- Settles O58: both quotients divide by a multiple of the rate, and half the ratio is the ideal divisor
plus 1. -/
theorem divisorIsNearestWithinMode : Obligations.DivisorIsNearestWithinMode := by
  refine fun f bc hbc => ⟨fun hf => ?_, fun hf => ?_⟩
  · rw [quotient4_eq, halve_ideal_div_eq_floor (by omega) hf]
    push_cast
    ring_nf
  · rw [quotient8_eq, halve_ideal_div_eq_floor (by omega) hf]
    push_cast
    ring_nf

/-! ### O59: the wrapping reading -/

/-- Where the fallback is taken `q8` is not 0: `q4` is at least 8193, or the special case has 34. -/
theorem quotient8_pos_of_fallback {f bc : Nat} (hbc : 0 < bc)
    (h : halve .ideal (quotient4 f bc) > 4095 ∨ (bc = 57600 ∧ f = 16000000)) :
    0 < quotient8 f bc := by
  obtain hbig | ⟨rfl, rfl⟩ := h
  · rw [halve_ideal_gt_iff, quotient4_eq, Nat.le_div_iff_mul_le (by omega)] at hbig
    rw [quotient8_eq]
    exact Nat.div_pos (by omega) (by omega)
  · decide

theorem quotient4_le (f bc : Nat) : quotient4 f bc ≤ f :=
  (Nat.div_le_self _ _).trans (Nat.div_le_self _ _)

theorem quotient8_le_quotient4 (f bc : Nat) : quotient8 f bc ≤ quotient4 f bc :=
  Nat.div_le_div_right (Nat.div_le_div_left (by omega) (by omega))

/-- With `q4` above 0 both readings halve the same quotients: `q8` is used only where it is not 0. -/
theorem baudCalc_wrap32_of_pos {f b : Nat} (hf : f < 4294967296)
    (hquot : 0 < quotient4 f (clampBaud b)) : baudCalc .wrap32 f b = baudCalc .ideal f b := by
  have hle4 := quotient4_le f (clampBaud b)
  have hle8 := quotient8_le_quotient4 f (clampBaud b)
  rw [baudCalc_eq, baudCalc_eq, halve_wrap32_pos hquot (by omega)]
  split_ifs with hfallback
  · have hge := clampBaud_ge b
    have hpos := quotient8_pos_of_fallback (by omega) hfallback
    rw [halve_wrap32_pos hpos (by omega)]
  · rfl

/-- With `q4 = 0` the wrapped difference is above every register value, so the fallback is taken, and
there `q8` is 0 too. -/
theorem baudCalc_wrap32_of_zero {f b : Nat} (hquot : quotient4 f (clampBaud b) = 0) :
    baudCalc .wrap32 f b = (2147483647, false) := by
  have hquot8 : quotient8 f (clampBaud b) = 0 := by
    have hle := quotient8_le_quotient4 f (clampBaud b)
    omega
  rw [baudCalc_eq, hquot, hquot8, halve_wrap32_zero, if_pos (.inl (by decide))]

/-- Settles O59: the readings differ only on the quotient 0, which the wrapping one turns into
`2^32 - 1`. -/
theorem wrappingReadingDiffers : Obligations.WrappingReadingDiffers := by
  refine ⟨fun f b => baudCalc_wrap32_of_pos, fun f b hquot => ⟨baudCalc_wrap32_of_zero hquot, ?_,
    highRatesGiveZero f b (by omega)⟩⟩
  rw [baudCalc_wrap32_of_zero hquot]
  decide

end Sys2Proof.Machine
